-- ==== Sys2Proof/Word.lean ====
section
/-! DEFINITION. The 32-bit word of the datapath (spec 40_word_ops.md R110) and the byte of the host side
(44_host_framing.md R191, R192).  Both are plain bit vectors, so `NotUint32` has nothing to check (60_exceptions.md R226). -/

namespace Sys2Proof

/-- R110: "an unsigned 32-bit integer, always kept reduced modulo 2^32". -/
abbrev Word := BitVec 32

/-- The source's Byte, an integer in [0, 255]; only the host-side framing has bytes (R58, R192). -/
abbrev Byte := BitVec 8

end Sys2Proof
end

