-- ==== Sys2Proof/Syntax.lean ====
section
/-! DEFINITION. The instructions: one constructor per row of spec/opcode_table.json, seventeen in all.  Ten rows are host
transactions (format `TW`), seven are engine micro-operations (format `SW`).  The register names of the host port stand
here too, since decoding speaks of them. -/

namespace Sys2Proof

/-- One constructor per row of the opcode table. -/
inductive Instr where
  /-- `INIT`, the IV loader (R161). -/
  | init
  /-- `NEXT`, compress one block (R162). -/
  | next
  /-- `FINAL`, the digest finalizer (R163). -/
  | final
  /-- `WRBLK i, data`, write one block word (R164). -/
  | wrblk (i : BitVec 4) (data : Word)
  /-- `RDSTAT`, read the status word (R165). -/
  | rdstat
  /-- `RDDIG 0` (R166). -/
  | rddig0
  /-- `RDDIG 1` (R166). -/
  | rddig1
  /-- `RDDIG 2` (R166). -/
  | rddig2
  /-- `RDDIG 3` (R166). -/
  | rddig3
  /-- `RDDIG 4` (R166). -/
  | rddig4
  /-- `EXPAND` at schedule index `t` (R132). -/
  | expand (t : BitVec 7)
  /-- `UNPACK` (R141). -/
  | unpack
  /-- `ROUND.CH` at round index `t` (R143). -/
  | roundCh (t : BitVec 7)
  /-- `ROUND.PAR1` at round index `t` (R144). -/
  | roundPar1 (t : BitVec 7)
  /-- `ROUND.MAJ` at round index `t` (R145). -/
  | roundMaj (t : BitVec 7)
  /-- `ROUND.PAR2` at round index `t` (R146). -/
  | roundPar2 (t : BitVec 7)
  /-- `FEED`, feed-forward and end of block (R150). -/
  | feed
  deriving DecidableEq, Repr

/-- The two agents that act on the state (00_scope.md R5, 43_commands.md R160). -/
inductive Agent where
  | host
  | engine
  deriving DecidableEq, Repr

/-- The agent whose step an instruction is: the table's column "agent". -/
def Instr.agent : Instr → Agent
  | .init | .next | .final | .wrblk _ _ | .rdstat => .host
  | .rddig0 | .rddig1 | .rddig2 | .rddig3 | .rddig4 => .host
  | .expand _ | .unpack | .roundCh _ | .roundPar1 _ | .roundMaj _ | .roundPar2 _ | .feed => .engine

/-- The sequencer phase `seq` (10_state.md R28).  The reserved codes 5..7 are unreachable and left out of the type, as R28
and U13 allow; log entry 16. -/
inductive Seq where
  | idle
  | expand
  | unpack
  | round
  | feed
  deriving DecidableEq, Repr

/-- What a word address of the host port names (the map of 20_memory.md R53). -/
inductive PortReg where
  | ctrl
  | status
  | block (i : BitVec 4)
  | digest (i : Fin 5)
  | reserved
  deriving DecidableEq, Repr

/-- An instruction word: a 40-bit transaction word or a 10-bit sequencer word (R80, R81, R86). -/
inductive CodeWord where
  | tw (w : BitVec 40)
  | sw (w : BitVec 10)
  deriving DecidableEq, Repr

end Sys2Proof
end

