-- ==== Sys2Proof/WellFormed.lean ====
section
/-! DEFINITION. Which terms of `Instr` are instructions of the machine: the index ranges of 30_encoding.md R86 (the
`t_min`/`t_max` constraints of the opcode table).  The other operands (`i` of 4 bits, `data` of 32) have no illegal value. -/

namespace Sys2Proof

/-- `lo <= t <= hi`. -/
def indexIn (lo hi : Nat) (t : BitVec 7) : Bool := decide (lo ≤ t.toNat ∧ t.toNat ≤ hi)

/-- R86: the legal index range of each micro-operation. -/
def Instr.wf : Instr → Bool
  | .init | .next | .final | .wrblk _ _ | .rdstat => true
  | .rddig0 | .rddig1 | .rddig2 | .rddig3 | .rddig4 => true
  | .unpack | .feed => true
  | .expand t => indexIn 16 79 t
  | .roundCh t => indexIn 0 19 t
  | .roundPar1 t => indexIn 20 39 t
  | .roundMaj t => indexIn 40 59 t
  | .roundPar2 t => indexIn 60 79 t

end Sys2Proof
end

