-- ==== Sys2Proof/Decode.lean ====
section
/-! DEFINITION. The two decoders (transaction words, 30_encoding.md R81 to R84; sequencer words, R86), total and rejecting
by name, then the encoder written from the same encoding tables, and the opcode table's masks as data. -/

namespace Sys2Proof

/-- What a transaction word decodes to.  Every rejection has its own name. -/
inductive TxnVerdict where
  /-- One of the ten host rows of the opcode table. -/
  | instr (i : Instr)
  /-- R82 "illegal command": a write to `CTRL` of a word other than 1, 2, 3. -/
  | illegalCommand
  /-- R82 "illegal direction": a read of a write-only register or a write of a read-only one. -/
  | illegalDirection
  /-- R82 "illegal address": a reserved word address. -/
  | illegalAddress
  /-- R82 "not a transaction": bit 38 is set. -/
  | notTransaction
  deriving DecidableEq, Repr

/-- What the engine's program counter `(seq, t)` selects. -/
inductive EngineVerdict where
  /-- One of the seven engine rows of the opcode table. -/
  | instr (i : Instr)
  /-- R28, R86: `seq = IDLE`, the engine has no step. -/
  | engineIdle
  /-- `t` outside its legal range (R29): `E_ROUND_INDEX`, by R86 and R224 for `EXPAND` and `ROUND`, by U13 and D6 for
  `UNPACK` and `FEED` (log entry 9). -/
  | roundIndex
  deriving DecidableEq, Repr

/-- What a sequencer word decodes to.  Every rejection has its own name. -/
inductive SeqVerdict where
  /-- The code of `seq` is one of R28's five names. -/
  | selects (v : EngineVerdict)
  /-- R86: `seq` 5..7, "unreachable; no meaning given".  No state of the engine has such a word. -/
  | reservedSeq
  deriving DecidableEq, Repr

/-- The instruction of a verdict, if it is one. -/
def TxnVerdict.toInstr : TxnVerdict → Option Instr
  | .instr i => some i
  | .illegalCommand | .illegalDirection | .illegalAddress | .notTransaction => none

/-- The instruction of a verdict, if it is one. -/
def SeqVerdict.toInstr : SeqVerdict → Option Instr
  | .selects (.instr i) => some i
  | .selects .engineIdle | .selects .roundIndex | .reservedSeq => none

/-! ### The transaction word, R81 -/

/-- `TW[39]`, the field `we`. -/
def twWe (w : BitVec 40) : Bool := w.getLsbD 39
/-- `TW[38]`, the field `z`. -/
def twZ (w : BitVec 40) : Bool := w.getLsbD 38
/-- `TW[37:32]`, the field `addr`. -/
def twAddr (w : BitVec 40) : BitVec 6 := w.extractLsb' 32 6
/-- `TW[31:0]`, the field `wdata`. -/
def twWdata (w : BitVec 40) : Word := w.extractLsb' 0 32

/-- R81: `TW = {we, 0, addr[5:0], wdata[31:0]}`. -/
def mkTW (we : Bool) (addr : BitVec 6) (wdata : Word) : BitVec 40 :=
  BitVec.ofBool we ++ 0#1 ++ addr ++ wdata

/-- The address map of R53. -/
def portReg (addr : BitVec 6) : PortReg :=
  if addr.toNat = 0x00 then .ctrl
  else if addr.toNat = 0x01 then .status
  else if 0x10 ≤ addr.toNat ∧ addr.toNat ≤ 0x1F then .block (addr.extractLsb' 0 4)
  else if h : 0x20 ≤ addr.toNat ∧ addr.toNat ≤ 0x24 then .digest ⟨addr.toNat - 0x20, by omega⟩
  else .reserved

/-- The instruction `RDDIG i` of each of the table's five rows. -/
def Instr.rddig : Fin 5 → Instr
  | 0 => .rddig0
  | 1 => .rddig1
  | 2 => .rddig2
  | 3 => .rddig3
  | 4 => .rddig4

/-- R84: the whole written word is the command. -/
def decodeCommand (wdata : Word) : TxnVerdict :=
  if wdata = 1#32 then .instr .init
  else if wdata = 2#32 then .instr .next
  else if wdata = 3#32 then .instr .final
  else .illegalCommand

/-- R82 over the port's three fields; `wdata` is ignored on reads. -/
def decodeRequest (we : Bool) (addr : BitVec 6) (wdata : Word) : TxnVerdict :=
  match portReg addr, we with
  | .ctrl, true => decodeCommand wdata
  | .status, false => .instr .rdstat
  | .block i, true => .instr (.wrblk i wdata)
  | .digest i, false => .instr (Instr.rddig i)
  | .ctrl, false | .status, true | .block _, false | .digest _, true => .illegalDirection
  | .reserved, _ => .illegalAddress

/-- R82, R83: total on 40-bit words and independent of any state (R92). -/
def decodeTW (w : BitVec 40) : TxnVerdict :=
  if twZ w then .notTransaction else decodeRequest (twWe w) (twAddr w) (twWdata w)

/-! ### The sequencer word, R86 -/

/-- R86: `SW = {seq[2:0], t[6:0]}`. -/
def mkSW (seq : BitVec 3) (t : BitVec 7) : BitVec 10 := seq ++ t
/-- `SW[9:7]`. -/
def swSeq (w : BitVec 10) : BitVec 3 := w.extractLsb' 7 3
/-- `SW[6:0]`. -/
def swT (w : BitVec 10) : BitVec 7 := w.extractLsb' 0 7

/-- The encoding of `seq` (R28). -/
def Seq.code : Seq → BitVec 3
  | .idle => 0
  | .expand => 1
  | .unpack => 2
  | .round => 3
  | .feed => 4

/-- The sequencer phase of a 3-bit code, if it is not reserved (R28). -/
def Seq.ofCode (c : BitVec 3) : Option Seq :=
  match c.toNat with
  | 0 => some .idle
  | 1 => some .expand
  | 2 => some .unpack
  | 3 => some .round
  | 4 => some .feed
  | _ => none

/-- R86: the band of a round index selects the row. -/
def selectRound (t : BitVec 7) : EngineVerdict :=
  if indexIn 0 19 t then .instr (.roundCh t)
  else if indexIn 20 39 t then .instr (.roundPar1 t)
  else if indexIn 40 59 t then .instr (.roundMaj t)
  else if indexIn 60 79 t then .instr (.roundPar2 t)
  else .roundIndex

/-- R86: what `(seq, t)` selects. -/
def select : Seq → BitVec 7 → EngineVerdict
  | .idle, _ => .engineIdle
  | .expand, t => if indexIn 16 79 t then .instr (.expand t) else .roundIndex
  | .unpack, t => if t = 0#7 then .instr .unpack else .roundIndex
  | .round, t => selectRound t
  | .feed, t => if t = 0#7 then .instr .feed else .roundIndex

/-- R86: total on 10-bit words. -/
def decodeSW (w : BitVec 10) : SeqVerdict :=
  match Seq.ofCode (swSeq w) with
  | some q => .selects (select q (swT w))
  | none => .reservedSeq

/-- The instruction either kind of instruction word decodes to. -/
def decode : CodeWord → Option Instr
  | .tw w => (decodeTW w).toInstr
  | .sw w => (decodeSW w).toInstr

/-! ### The encoder, R81, R82, R86 -/

/-- The word of an instruction; on reads the ignored field `wdata` is "canonically 0" (R81). -/
def encode : Instr → CodeWord
  | .init => .tw (mkTW true 0x00#6 1#32)
  | .next => .tw (mkTW true 0x00#6 2#32)
  | .final => .tw (mkTW true 0x00#6 3#32)
  | .wrblk i data => .tw (mkTW true (1#2 ++ i) data)
  | .rdstat => .tw (mkTW false 0x01#6 0#32)
  | .rddig0 => .tw (mkTW false 0x20#6 0#32)
  | .rddig1 => .tw (mkTW false 0x21#6 0#32)
  | .rddig2 => .tw (mkTW false 0x22#6 0#32)
  | .rddig3 => .tw (mkTW false 0x23#6 0#32)
  | .rddig4 => .tw (mkTW false 0x24#6 0#32)
  | .expand t => .sw (mkSW 1#3 t)
  | .unpack => .sw (mkSW 2#3 0#7)
  | .roundCh t | .roundPar1 t | .roundMaj t | .roundPar2 t => .sw (mkSW 3#3 t)
  | .feed => .sw (mkSW 4#3 0#7)

/-! ### The host's view of the decoder -/

/-- The instruction the decoder reads from a word of the opcode table.  A row of at most two bytes is a sequencer word
(10 bits), a wider one a transaction word (40 bits); a number too large for its format is no word of it. -/
def decodeTableWord (nbits w : Nat) : Option Instr :=
  if nbits ≤ 16 then
    (if w < 2 ^ 10 then (decodeSW (BitVec.ofNat 10 w)).toInstr else none)
  else
    (if w < 2 ^ 40 then (decodeTW (BitVec.ofNat 40 w)).toInstr else none)

/-! ### The opcode table as data -/

/-- The `match` and `mask` of an instruction's row in spec/opcode_table.json, as numbers, with the row's width. -/
def tableRow : Instr → Nat × Nat × Nat
  | .init => (40, 0x8000000001, 0xFFFFFFFFFF)
  | .next => (40, 0x8000000002, 0xFFFFFFFFFF)
  | .final => (40, 0x8000000003, 0xFFFFFFFFFF)
  | .wrblk _ _ => (40, 0x9000000000, 0xF000000000)
  | .rdstat => (40, 0x0100000000, 0xFF00000000)
  | .rddig0 => (40, 0x2000000000, 0xFF00000000)
  | .rddig1 => (40, 0x2100000000, 0xFF00000000)
  | .rddig2 => (40, 0x2200000000, 0xFF00000000)
  | .rddig3 => (40, 0x2300000000, 0xFF00000000)
  | .rddig4 => (40, 0x2400000000, 0xFF00000000)
  | .expand _ => (10, 0x080, 0x380)
  | .unpack => (10, 0x100, 0x380)
  | .roundCh _ | .roundPar1 _ | .roundMaj _ | .roundPar2 _ => (10, 0x180, 0x380)
  | .feed => (10, 0x200, 0x380)

/-- The number a code word is, and its width. -/
def CodeWord.number : CodeWord → Nat × Nat
  | .tw w => (40, w.toNat)
  | .sw w => (10, w.toNat)

end Sys2Proof
end

