-- ==== Sys2Proof/Config.lean ====
section
/-! DEFINITION. What an implementation fixes and what the spec leaves open.  The constants have no body, so no proof can
see their values: whatever is proved holds for every value of them. -/

namespace Sys2Proof

/-- Open parameter P2 `LATENCY` and 93_implementation_defined.md U10: how many host transactions fit between two engine
steps.  `Config.hostTurns n` is the `n`-th draw.  It is some natural number, so it is always finite, which is the fairness
to the engine that 43_commands.md R160 assumes.  Log entry 2. -/
opaque Config.hostTurns : Nat → Nat

/-- 70_reset_and_hazards.md R240 and U9: the value an unspecified register has after a reset EVENT, "any value, possibly
different after each reset".  First argument: the number of the draw; second: the register (0..4 are `A..E`, 5..84 are
`W[0..79]`, 85..100 are `M[0..15]`).  Log entry 3. -/
opaque Config.resetWord : Nat → Nat → Word

/-- Open parameter P3 `N_INSTANCES`, "at least 1": how many engines a system has beside the first.  Log entry 10. -/
opaque Config.furtherInstances : Nat

/-- How many free values were drawn before instance `k` of a system starts, so that the instances' free values (their schedules,
U10, and their unspecified registers, U9) are not tied to one another: R231 gives them no connection.  Log entry 10. -/
opaque Config.firstDraw : Nat → Nat

/-- P3: the number of independent engine instances, at least one. -/
def Config.nInstances : Nat := Config.furtherInstances + 1

end Sys2Proof
end

