-- ==== Sys2Proof/Machine/Constants.lean ====
section
/-! DEFINITION. The hardwired constants `IV` (10_state.md R32) and the codes of the fault register (60_exceptions.md R211). -/

namespace Sys2Proof.Machine

/-- R32: the five constants the chaining state is created with. -/
def iv : Vector Word 5 :=
  #v[0x67452301#32, 0xefcdab89#32, 0x98badcfe#32, 0x10325476#32, 0xc3d2e1f0#32]

/-- R119, R143: the round constant of band [0,20). -/
def kCh : Word := 0x5a827999#32
/-- R119, R144: the round constant of band [20,40). -/
def kPar1 : Word := 0x6ed9eba1#32
/-- R119, R145: the round constant of band [40,60). -/
def kMaj : Word := 0x8f1bbcdc#32
/-- R119, R146: the round constant of band [60,80). -/
def kPar2 : Word := 0xca62c1d6#32

end Sys2Proof.Machine
end

