-- ==== Sys2Proof/Machine/State.lean ====
section
/-! DEFINITION. The state: the registers of one engine instance (10_state.md R20), the host agent (43_commands.md R160:
"the state of rule R20 plus the host's remaining program"), and the model's own fields for what the spec leaves open.
All of it is plain data.  The machine has no memory (20_memory.md R50, R57): the registers are all there is. -/

namespace Sys2Proof.Machine

/-- The driver state machine `phase` (R27). -/
inductive Phase where
  | empty
  | accum
  | final
  | fault
  deriving DecidableEq, Repr

/-- The eight fault causes (R211). -/
inductive FaultCode where
  | eAddr
  | eAccess
  | eCmd
  | eBusy
  | ePhase
  | eIncompleteBlock
  | eNotFinal
  | eRoundIndex
  deriving DecidableEq, Repr

/-- The response to one transaction as the host has it (R51, R52): the direction the host asked for (`req_we`), `rsp_err`
and `rsp_rdata`. -/
structure Response where
  we : Bool
  err : Bool
  rdata : Word
  deriving DecidableEq, Repr

/-- One item of what the outside still has to do to the engine (log entry 1). -/
inductive HostItem where
  /-- One transaction, by its transaction word (R81, R90). -/
  | txn (tw : BitVec 40)
  /-- The pseudo-instruction `WAIT`: repeat `RDSTAT` until `BUSY = 0` (R91). -/
  | wait
  /-- An assertion of `rst` between two transactions (R51, R240, R241). -/
  | reset
  deriving DecidableEq, Repr

/-- The machine's state. -/
structure State where
  /-- Driver state machine (R27). -/
  phase : Phase
  /-- Sequencer phase (R28). -/
  seq : Seq
  /-- Schedule and round index, 7 bits (R29). -/
  t : BitVec 7
  /-- Fault code, 4 bits (R30). -/
  err : BitVec 4
  /-- Written-flags `MV[15:0]` (R26). -/
  MV : BitVec 16
  /-- Chaining state `H[0..4]` (R21). -/
  H : Vector Word 5
  /-- Working register `A` (R22). -/
  A : Word
  /-- Working register `B` (R22). -/
  B : Word
  /-- Working register `C` (R22). -/
  C : Word
  /-- Working register `D` (R22). -/
  D : Word
  /-- Working register `E` (R22). -/
  E : Word
  /-- Block buffer `M[0..15]` (R25). -/
  M : Vector Word 16
  /-- Message schedule `W[0..79]` (R24). -/
  W : Vector Word 80
  /-- The host's remaining program (R90, R160). -/
  program : List HostItem
  /-- What the host was answered so far, oldest first (R160 "delivers the response", R171). -/
  responses : List Response
  /-- Model's own: the scheduling choices already fixed.  While both agents are enabled, the head is how many host steps come
  before the engine's next step; where the list is empty the choice is a free value (R160, U10, log entry 2). -/
  turns : List Nat
  /-- Model's own: how many free values were drawn so far (log entries 2 and 3). -/
  draws : Nat
  /-- Model's own: every fault entry, oldest first, never cleared (R222, D17, log entry 4). -/
  faultLog : List FaultCode
  deriving DecidableEq, Repr

/-- The reset state (R240).  `A..E`, `W`, `M` are unspecified there; their zeros are a DESIGN CHOICE, log entry 5.
The host has no program and no answers yet. -/
def State.reset : State where
  phase := .empty
  seq := .idle
  t := 0#7
  err := 0#4
  MV := 0#16
  H := iv
  A := 0#32
  B := 0#32
  C := 0#32
  D := 0#32
  E := 0#32
  M := Vector.replicate 16 0#32
  W := Vector.replicate 80 0#32
  program := []
  responses := []
  turns := []
  draws := 0
  faultLog := []

/-- Why a step stops with a fault: never.  The faults of the spec (R211) are fault ENTRIES (R216), which are next states, and
every engine state has a step or is idle, so there is no constructor. -/
inductive Fault where
  deriving DecidableEq, Repr

/-- Why a step refuses. -/
inductive Refusal where
  /-- Raised by `exec` alone, for an instruction without a meaning; no arm does. -/
  | notModelled (mnemonic : String)
  /-- Raised by the host's step on a word with bit 38 set: "cannot be issued on the port" (R82), "a host program
  containing it is `refuse`d" (U11).  Safe: no transaction exists for it. -/
  | notATransaction
  deriving DecidableEq, Repr

/-- The outcome of a step of this machine. -/
abbrev Result := Host.Outcome State Fault Refusal

end Sys2Proof.Machine
end

