-- ==== Sys2Proof/Machine/Flags.lean ====
section
/-! DEFINITION. The status word and the sideband outputs: the machine's only flags (10_state.md R33), pure functions of
control state (30_encoding.md R85, 20_memory.md R51), with the numeric codes they show. -/

namespace Sys2Proof.Machine

/-- The encoding of `phase` (R27). -/
def Phase.bits : Phase → BitVec 2
  | .empty => 0
  | .accum => 1
  | .final => 2
  | .fault => 3

/-- The code stored in `err` (R211). -/
def FaultCode.code : FaultCode → BitVec 4
  | .eAddr => 1
  | .eAccess => 2
  | .eCmd => 3
  | .eBusy => 4
  | .ePhase => 5
  | .eIncompleteBlock => 6
  | .eNotFinal => 7
  | .eRoundIndex => 8

/-- `STATUS.BUSY`, and the sideband output `busy`: `seq != IDLE` (R85, R51). -/
def State.busy (s : State) : Bool := s.seq != .idle

/-- `STATUS.BLKFULL`: all sixteen written-flags are set (R85). -/
def State.blkFull (s : State) : Bool := s.MV == 0xFFFF#16

/-- The sideband output `digest_valid` (R51). -/
def State.digestValid (s : State) : Bool := s.phase == .final

/-- The sideband output `fault` (R51). -/
def State.faultOut (s : State) : Bool := s.phase == .fault

/-- R85: `STATUS = zext_32({err[3:0], 0b00, phase[1:0], 0b00, BLKFULL, BUSY})`. -/
def State.statusWord (s : State) : Word :=
  (s.err ++ 0#2 ++ s.phase.bits ++ 0#2 ++ BitVec.ofBool s.blkFull ++ BitVec.ofBool s.busy).setWidth 32

/-- R86: the sequencer word `SW = {seq, t}`, the engine's program counter. -/
def State.sw (s : State) : BitVec 10 := mkSW s.seq.code s.t

end Sys2Proof.Machine
end

