-- ==== Sys2Proof/Machine/WordOps.lean ====
section
/-! DEFINITION. The datapath's word operations (40_word_ops.md): pure functions, no flags, no faults but for a bad index. -/

namespace Sys2Proof.Machine

/-- `ADD32` (R111): the exact sum, reduced once modulo 2^32; the carry out is discarded. -/
def add32 (xs : List Word) : Word := BitVec.ofNat 32 ((xs.map BitVec.toNat).sum)

/-- `ROTL(n, w)` (R112): the amount is taken modulo 32 (D21). -/
def rotl (n : Nat) (w : Word) : Word :=
  if n % 32 = 0 then w
  else BitVec.ofNat 32 ((w.toNat * 2 ^ (n % 32)) % 2 ^ 32 + w.toNat / 2 ^ (32 - n % 32))

/-- The choice function `Ch` (R115). -/
def ch (B C D : Word) : Word := (B &&& C) ||| (~~~B &&& D)

/-- `Parity` (R116, R118). -/
def parity (B C D : Word) : Word := B ^^^ C ^^^ D

/-- The majority function `Maj` (R117). -/
def maj (B C D : Word) : Word := (B &&& C) ||| (B &&& D) ||| (C &&& D)

/-- The selector `f(t, B, C, D)` (R114); `none` stands for `raise E_ROUND_INDEX`. -/
def selector (t : Nat) (B C D : Word) : Option Word :=
  if t < 20 then some (ch B C D)
  else if t < 40 then some (parity B C D)
  else if t < 60 then some (maj B C D)
  else if t < 80 then some (parity B C D)
  else none

/-- The round constant `K(t)` (R119); `none` stands for `raise E_ROUND_INDEX`. -/
def roundK (t : Nat) : Option Word :=
  if t < 20 then some kCh
  else if t < 40 then some kPar1
  else if t < 60 then some kMaj
  else if t < 80 then some kPar2
  else none

end Sys2Proof.Machine
end

