-- ==== Sys2Proof/Machine/Operands.lean ====
section
/-! DEFINITION. The operand forms: how micro-operations and transactions name the registers they read and write
(20_memory.md R57, 40_word_ops.md, 41_schedule.md, 42_rounds.md, 43_commands.md).  Each is a named read or a named update. -/

namespace Sys2Proof.Machine

/-- The source of `EXPAND` at `t` (R57, R132): `ROTL(1, W[t-3] XOR W[t-8] XOR W[t-14] XOR W[t-16])`. -/
def State.expanded (s : State) (t : Nat) (h : 16 ≤ t ∧ t ≤ 79) : Word :=
  rotl 1 (s.W[t - 3] ^^^ s.W[t - 8] ^^^ s.W[t - 14] ^^^ s.W[t - 16])

/-- Write `W[t]` (R132). -/
def State.setW (s : State) (t : Nat) (h : t < 80) (x : Word) : State := { s with W := s.W.set t x h }

/-- `LOADBLK`'s register part (R131): `W[0..15] <- M[0..15]`, all together, and `MV <- 0`; `W[16..79]` and `M` stay. -/
def State.loadBlock (s : State) : State :=
  { s with W := Vector.ofFn fun i => if h : i.val < 16 then s.M[i.val] else s.W[i.val], MV := 0#16 }

/-- `M[i] <- data; MV[i] <- 1` (R164). -/
def State.writeBlock (s : State) (i : BitVec 4) (data : Word) : State :=
  { s with M := s.M.set i.toNat data i.isLt, MV := s.MV ||| (1#16 <<< i.toNat) }

/-- The five working registers, written together (R141, R142). -/
def State.setVars (s : State) (a b c d e : Word) : State := { s with A := a, B := b, C := c, D := d, E := e }

/-- Write the program counter `(seq, t)` (R8, R28, R29). -/
def State.jump (s : State) (q : Seq) (n : BitVec 7) : State := { s with seq := q, t := n }

/-- The end of a counted micro-operation at index `n` (R132, R142): the next index, or at 79 the phase `done` with index 0. -/
def State.advance (s : State) (n : BitVec 7) (done : Seq) : State :=
  if n.toNat < 79 then { s with t := n + 1 } else s.jump done 0#7

/-- `phase <- p` (R150, R163). -/
def State.setPhase (s : State) (p : Phase) : State := { s with phase := p }

/-- The feed-forward sums (R150), from the old `H`. -/
def State.feedForward (s : State) : State :=
  { s with H := #v[add32 [s.H[0], s.A], add32 [s.H[1], s.B], add32 [s.H[2], s.C], add32 [s.H[3], s.D],
      add32 [s.H[4], s.E]] }

end Sys2Proof.Machine
end

