-- ==== Sys2Proof/Machine/Ops.lean ====
section
/-! DEFINITION. The shared operations: answering a transaction, fault entry (60_exceptions.md R216) with its recovery
(R222: `INIT` and reset), refusal in phase `FAULT` (43_commands.md R170), and the reset event (70_reset_and_hazards.md
R240, R241).  The machine has no memory, so there are no memory operations. -/

namespace Sys2Proof.Machine

/-- Deliver a response to the host (R51, R52, R160). -/
def State.respond (s : State) (we err : Bool) (rdata : Word) : State :=
  { s with responses := s.responses ++ [⟨we, err, rdata⟩] }

/-- The register part of fault entry (R216), and the model's own record of it (R222). -/
def State.enterFault (s : State) (c : FaultCode) : State :=
  { s with phase := .fault, err := c.code, seq := .idle, t := 0#7, faultLog := s.faultLog ++ [c] }

/-- `raise <Fault>(code)`, taken by either agent (R8, R216).  R216 gives it for `phase != FAULT` only, and by R30 `err` is
written only then; in phase `FAULT` (no run from reset gets here) it just stops the sequencer.  Log entry 6. -/
def State.raise (s : State) (c : FaultCode) : State :=
  if s.phase = .fault then s.jump .idle 0#7 else s.enterFault c

/-- `raise` by a transaction (R216): `rsp_err = 1`, `rsp_rdata = 0`. -/
def State.raiseTxn (s : State) (we : Bool) (c : FaultCode) : State := (s.raise c).respond we true 0#32

/-- A refused transaction (R170): `rsp_err = 1`, `rsp_rdata = 0`, nothing else. -/
def State.refuse (s : State) (we : Bool) : State := s.respond we true 0#32

/-- The registers `INIT` writes (R161): the IV loader, which is also the return from phase `FAULT` (R222). -/
def State.loadIV (s : State) : State :=
  { s with H := iv, phase := .empty, err := 0#4, seq := .idle, t := 0#7, MV := 0#16 }

/-- The reset event (R240, R241): the specified registers as after `INIT`, the unspecified ones at free values. -/
def State.resetEvent (s : State) : State :=
  { s with
    H := iv, phase := .empty, err := 0#4, seq := .idle, t := 0#7, MV := 0#16
    A := Config.resetWord s.draws 0, B := Config.resetWord s.draws 1, C := Config.resetWord s.draws 2
    D := Config.resetWord s.draws 3, E := Config.resetWord s.draws 4
    W := Vector.ofFn fun i => Config.resetWord s.draws (5 + i.val)
    M := Vector.ofFn fun i => Config.resetWord s.draws (85 + i.val)
    draws := s.draws + 1 }

/-- An illegal transaction (R83, R169): refused in phase `FAULT`, otherwise the fault `c`. -/
def illegalTxn (we : Bool) (c : FaultCode) (s : State) : Result :=
  if s.phase = .fault then .next (s.refuse we) else .next (s.raiseTxn we c)

end Sys2Proof.Machine
end

