-- ==== Sys2Proof/Machine/Commands.lean ====
section
/-! DEFINITION. The host's instructions (43_commands.md R161 to R166), each with its checks in the order of R169 and R220:
phase `FAULT` first, then busy, then the phase, then the block. -/

namespace Sys2Proof.Machine

/-- `INIT` (R161): legal in every phase, busy or not; never faults. -/
def execInit (s : State) : Result := .next (s.loadIV.respond true false 0#32)

/-- `NEXT` (R162): `LOADBLK` at the same instant, then the engine has steps. -/
def execNext (s : State) : Result :=
  if s.phase = .fault then .next (s.refuse true)
  else if s.seq ≠ .idle then .next (s.raiseTxn true .eBusy)
  else if s.phase = .final then .next (s.raiseTxn true .ePhase)
  else if s.MV ≠ 0xFFFF#16 then .next (s.raiseTxn true .eIncompleteBlock)
  else .next ((s.loadBlock.jump .expand 16#7).respond true false 0#32)

/-- `FINAL` (R163): computes nothing, freezes `H` and opens the digest window. -/
def execFinal (s : State) : Result :=
  if s.phase = .fault then .next (s.refuse true)
  else if s.seq ≠ .idle then .next (s.raiseTxn true .eBusy)
  else if s.phase ≠ .accum then .next (s.raiseTxn true .ePhase)
  else .next ((s.setPhase .final).respond true false 0#32)

/-- `WRBLK i, data` (R164). -/
def execWrblk (i : BitVec 4) (data : Word) (s : State) : Result :=
  if s.phase = .fault then .next (s.refuse true)
  else if s.seq ≠ .idle then .next (s.raiseTxn true .eBusy)
  else if s.phase = .final then .next (s.raiseTxn true .ePhase)
  else .next ((s.writeBlock i data).respond true false 0#32)

/-- `RDSTAT` (R165): legal in every phase, busy or not; no state changes. -/
def execRdstat (s : State) : Result := .next (s.respond false false s.statusWord)

/-- `RDDIG i` (R166), for any of the five rows. -/
def readDigest (i : Fin 5) (s : State) : Result :=
  if s.phase = .fault then .next (s.refuse false)
  else if s.phase ≠ .final then .next (s.raiseTxn false .eNotFinal)
  else .next (s.respond false false s.H[i])

/-- `RDDIG 0` (R166). -/
def execRddig0 (s : State) : Result := readDigest 0 s
/-- `RDDIG 1` (R166). -/
def execRddig1 (s : State) : Result := readDigest 1 s
/-- `RDDIG 2` (R166). -/
def execRddig2 (s : State) : Result := readDigest 2 s
/-- `RDDIG 3` (R166). -/
def execRddig3 (s : State) : Result := readDigest 3 s
/-- `RDDIG 4` (R166). -/
def execRddig4 (s : State) : Result := readDigest 4 s

end Sys2Proof.Machine
end

