-- ==== Sys2Proof/Machine/MicroOps.lean ====
section
/-! DEFINITION. The engine's micro-operations (41_schedule.md R132, 42_rounds.md R141 to R150).  The index operand `t` is the
register `t` at the fetch (`SW = {seq, t}`, R86); log entry 7. -/

namespace Sys2Proof.Machine

/-- `EXPAND` (R132). -/
def execExpand (t : BitVec 7) (s : State) : Result :=
  if h : 16 ≤ t.toNat ∧ t.toNat ≤ 79 then
    .next ((s.setW t.toNat (by omega) (s.expanded t.toNat h)).advance t .unpack)
  else .next (s.raise .eRoundIndex)

/-- `UNPACK` (R141). -/
def execUnpack (s : State) : Result :=
  .next ((s.setVars s.H[0] s.H[1] s.H[2] s.H[3] s.H[4]).jump .round 0#7)

/-- `ROUND` (R142), for the selector and constant of any band; all five writes use the values read before. -/
def roundWith (f : Word → Word → Word → Word) (k : Word) (t : BitVec 7) (s : State) : Result :=
  if h : t.toNat ≤ 79 then
    .next ((s.setVars (add32 [rotl 5 s.A, f s.B s.C s.D, s.E, k, s.W[t.toNat]]) s.A (rotl 30 s.B) s.C s.D).advance t .feed)
  else .next (s.raise .eRoundIndex)

/-- `ROUND.CH` (R143). -/
def execRoundCh (t : BitVec 7) (s : State) : Result := roundWith ch kCh t s
/-- `ROUND.PAR1` (R144). -/
def execRoundPar1 (t : BitVec 7) (s : State) : Result := roundWith parity kPar1 t s
/-- `ROUND.MAJ` (R145). -/
def execRoundMaj (t : BitVec 7) (s : State) : Result := roundWith maj kMaj t s
/-- `ROUND.PAR2` (R146). -/
def execRoundPar2 (t : BitVec 7) (s : State) : Result := roundWith parity kPar2 t s

/-- `FEED` (R150). -/
def execFeed (s : State) : Result := .next ((s.feedForward.setPhase .accum).jump .idle 0#7)

end Sys2Proof.Machine
end

