-- ==== Sys2Proof/Machine/Dispatch.lean ====
section
/-! DEFINITION. The dispatch of an instruction to its meaning. -/

namespace Sys2Proof.Machine

def exec (i : Instr) (s : State) : Host.Outcome State Fault Refusal :=
  match i with
  -- the host's transactions
  | .init => Sys2Proof.Machine.execInit s
  | .next => Sys2Proof.Machine.execNext s
  | .final => Sys2Proof.Machine.execFinal s
  | .wrblk ix data => Sys2Proof.Machine.execWrblk ix data s
  | .rdstat => Sys2Proof.Machine.execRdstat s
  | .rddig0 => Sys2Proof.Machine.execRddig0 s
  | .rddig1 => Sys2Proof.Machine.execRddig1 s
  | .rddig2 => Sys2Proof.Machine.execRddig2 s
  | .rddig3 => Sys2Proof.Machine.execRddig3 s
  | .rddig4 => Sys2Proof.Machine.execRddig4 s
  -- the engine's micro-operations
  | .expand t => Sys2Proof.Machine.execExpand t s
  | .unpack => Sys2Proof.Machine.execUnpack s
  | .roundCh t => Sys2Proof.Machine.execRoundCh t s
  | .roundPar1 t => Sys2Proof.Machine.execRoundPar1 t s
  | .roundMaj t => Sys2Proof.Machine.execRoundMaj t s
  | .roundPar2 t => Sys2Proof.Machine.execRoundPar2 t s
  | .feed => Sys2Proof.Machine.execFeed s

end Sys2Proof.Machine
end

