-- ==== Sys2Proof/Machine/Agents.lean ====
section
/-! DEFINITION. The two agents' steps (43_commands.md R160): fetching an instruction (the head of the host's program, or the
sequencer word), decoding it, running it, and which agent goes when both are enabled. -/

namespace Sys2Proof.Machine

/-- What a decoded transaction word does; `we` is its direction.  The illegal transactions take the faults R83 and R212 to
R214 name. -/
def runVerdict (we : Bool) (v : TxnVerdict) (s : State) : Result :=
  match v with
  | .instr i => exec i s
  | .illegalCommand => illegalTxn we .eCmd s
  | .illegalDirection => illegalTxn we .eAccess s
  | .illegalAddress => illegalTxn we .eAddr s
  | .notTransaction => .refused .notATransaction

/-- What the engine does at what `(seq, t)` selects: the micro-operation, nothing, or the fault of R224. -/
def runMicro (v : EngineVerdict) (s : State) : Result :=
  match v with
  | .instr i => exec i s
  | .engineIdle => .next s
  | .roundIndex => .next (s.raise .eRoundIndex)

/-- The program that remains once the head item's present step is done; `WAIT` repeats while `BUSY = 1` (R91). -/
def remaining (s : State) : List HostItem :=
  match s.program with
  | [] => []
  | .txn _ :: rest => rest
  | .wait :: rest => if s.busy then .wait :: rest else rest
  | .reset :: rest => rest

/-- The state with the head item's present step taken off the program. -/
def State.consume (s : State) : State := { s with program := remaining s }

/-- The host step (R160): one transaction, or a reset. -/
def hostStep (s : State) : Result :=
  match s.program with
  | [] => .next s
  | .txn w :: _ => runVerdict (twWe w) (decodeTW w) s.consume
  | .wait :: _ => exec .rdstat s.consume
  | .reset :: _ => .next s.consume.resetEvent

/-- The engine step (R160): the micro-operation that `SW = {seq, t}` selects. -/
def engineStep (s : State) : Result := runMicro (select s.seq s.t) s

/-- How many host steps come before the engine's next step, while both are enabled: fixed already, or a free value. -/
def State.turn (s : State) : Nat :=
  match s.turns with
  | [] => Config.hostTurns s.draws
  | n :: _ => n

/-- The engine goes now: its turn is used up. -/
def State.engineTurn (s : State) : State :=
  match s.turns with
  | [] => { s with draws := s.draws + 1 }
  | _ :: rest => { s with turns := rest }

/-- The host goes now: one step fewer before the engine's turn. -/
def State.hostTurn (s : State) : State :=
  match s.turns with
  | [] => { s with turns := [Config.hostTurns s.draws - 1], draws := s.draws + 1 }
  | n :: rest => { s with turns := (n - 1) :: rest }

/-- One step of the interleaving (R160, R60): the only enabled agent, or, where both are, the one whose turn it is.
Where neither is enabled nothing changes (R171, R230; log entry 8). -/
def agentStep (s : State) : Result :=
  if s.program = [] then engineStep s
  else if s.seq = .idle then hostStep s
  else if s.turn = 0 then engineStep s.engineTurn
  else hostStep s.hostTurn

/-- Let the host go next, whatever the engine has to do. -/
def State.hostNext (s : State) : State :=
  if s.seq = .idle then s
  else
    match s.turns with
    | [] => { s with turns := [1] }
    | n :: rest => { s with turns := (n + 1) :: rest }

/-- Put a transaction word at the head of the host's program, with the host next. -/
def State.placeTW (s : State) (w : BitVec 40) : State := { s.hostNext with program := .txn w :: s.program }

/-- Put a sequencer word into `(seq, t)`, with the engine next.  No state has a reserved code of `seq`, so such a word is not
placed (log entry 11). -/
def State.placeSW (s : State) (w : BitVec 10) : State :=
  match Seq.ofCode (swSeq w) with
  | some q => { s with seq := q, t := swT w, turns := if s.program = [] then s.turns else 0 :: s.turns }
  | none => s

end Sys2Proof.Machine
end

