-- ==== Sys2Proof/Machine/Step.lean ====
section
/-! DEFINITION. One step of the machine, and the host's way to place the next instruction. -/

namespace Sys2Proof.Machine

/-- One step (43_commands.md R160). -/
def step (s : State) : Host.Outcome State Fault Refusal := agentStep s

/-- `s` with an instruction word placed where the next step fetches: a row of at most two bytes is a sequencer word and
goes into `(seq, t)`, a wider one is a transaction word and goes to the head of the host's program. -/
def State.withFetchWord (s : State) (nbits w : Nat) : State :=
  if nbits ≤ 16 then s.placeSW (BitVec.ofNat 10 w) else s.placeTW (BitVec.ofNat 40 w)

end Sys2Proof.Machine
end

