-- ==== Sys2Proof/Machine/Assembler.lean ====
section
/-! DEFINITION. The command syntax (30_encoding.md R89 to R91): the lines of a host program, the pseudo-instructions, and
their assembly into host items.  An operand out of range is an assembler error: no transaction word exists for it. -/

namespace Sys2Proof.Machine

/-- One line of a host program (R89, R91), with its operands as written. -/
inductive Asm where
  | init
  | next
  | final
  | wrblk (i imm : Nat)
  | rdstat
  | rddig (i : Nat)
  /-- Raw `WR addr, imm32`. -/
  | wr (addr imm : Nat)
  /-- Raw `RD addr`. -/
  | rd (addr : Nat)
  | wait
  /-- `BLOCK w0, ..., w15`. -/
  | block (ws : Vector Word 16)
  /-- `HASHBLK w0, ..., w15`. -/
  | hashblk (ws : Vector Word 16)
  | digest
  deriving DecidableEq, Repr

/-- The item of one write transaction. -/
def writeItem (addr : BitVec 6) (v : Word) : HostItem := .txn (mkTW true addr v)
/-- The item of one read transaction. -/
def readItem (addr : BitVec 6) : HostItem := .txn (mkTW false addr 0#32)

/-- The items of `INIT`, `NEXT`, `FINAL`, `WRBLK`, `RDSTAT`, `RDDIG` (R89). -/
def initItem : HostItem := writeItem 0x00#6 1#32
def nextItem : HostItem := writeItem 0x00#6 2#32
def finalItem : HostItem := writeItem 0x00#6 3#32
def wrblkItem (i : Nat) (v : Word) : HostItem := writeItem (BitVec.ofNat 6 (0x10 + i)) v
def rdstatItem : HostItem := readItem 0x01#6
def rddigItem (i : Nat) : HostItem := readItem (BitVec.ofNat 6 (0x20 + i))

/-- `BLOCK`: sixteen `WRBLK` in canonical order (R91). -/
def blockItems (ws : Vector Word 16) : List HostItem := (List.finRange 16).map fun i => wrblkItem i.val ws[i]

/-- `HASHBLK`: `BLOCK`; `NEXT`; `WAIT` (R91). -/
def hashblkItems (ws : Vector Word 16) : List HostItem := blockItems ws ++ [nextItem, .wait]

/-- `DIGEST`: `RDDIG 0` to `RDDIG 4` (R91). -/
def digestItems : List HostItem := (List.range 5).map rddigItem

/-- The items of one line, or an assembler error (R89). -/
def Asm.items : Asm → Option (List HostItem)
  | .init => some [initItem]
  | .next => some [nextItem]
  | .final => some [finalItem]
  | .wrblk i imm => if i ≤ 15 ∧ imm < 2 ^ 32 then some [wrblkItem i (BitVec.ofNat 32 imm)] else none
  | .rdstat => some [rdstatItem]
  | .rddig i => if i ≤ 4 then some [rddigItem i] else none
  | .wr addr imm =>
    if addr ≤ 0x3F ∧ imm < 2 ^ 32 then some [writeItem (BitVec.ofNat 6 addr) (BitVec.ofNat 32 imm)] else none
  | .rd addr => if addr ≤ 0x3F then some [readItem (BitVec.ofNat 6 addr)] else none
  | .wait => some [.wait]
  | .block ws => some (blockItems ws)
  | .hashblk ws => some (hashblkItems ws)
  | .digest => some digestItems

/-- A host program (R90): its lines in order, or an assembler error. -/
def assemble : List Asm → Option (List HostItem)
  | [] => some []
  | a :: rest =>
    match a.items, assemble rest with
    | some x, some y => some (x ++ y)
    | _, _ => none

/-- The driver script (44_host_framing.md R196): `INIT`, every block in order, `FINAL`, `DIGEST`. -/
def driverScript (Xs : List (Vector Word 16)) : List HostItem :=
  initItem :: (Xs.flatMap hashblkItems ++ finalItem :: digestItems)

end Sys2Proof.Machine
end

