-- ==== Sys2Proof/Machine/Compress.lean ====
section
/-! DEFINITION. The block function `Compress(S, X)` (42_rounds.md R151), a pure function that the engine's 146
micro-operations are compared with (R152). -/

namespace Sys2Proof.Machine

/-- One more schedule word: at index `t` = the number of words so far, `ROTL(1, W[t-3] XOR W[t-8] XOR W[t-14] XOR W[t-16])`.
The schedule starts with 16 words, so no index is out of range. -/
def extendSchedule (ws : List Word) : List Word :=
  let t := ws.length
  ws ++ [rotl 1 (ws.getD (t - 3) 0#32 ^^^ ws.getD (t - 8) 0#32 ^^^ ws.getD (t - 14) 0#32 ^^^ ws.getD (t - 16) 0#32)]

/-- The first `16 + n` words of the schedule of a block. -/
def schedulePrefix (X : Vector Word 16) : Nat → List Word
  | 0 => X.toList
  | n + 1 => extendSchedule (schedulePrefix X n)

/-- `W[t]` of a block's schedule, for `t < 80` (R133). -/
def scheduleWord (X : Vector Word 16) (t : Nat) : Word := (schedulePrefix X 64).getD t 0#32

/-- The five working variables `(a, b, c, d, e)`. -/
structure Vars where
  a : Word
  b : Word
  c : Word
  d : Word
  e : Word
  deriving DecidableEq, Repr

/-- One round at index `t < 80` with schedule word `w` (R151). -/
def roundVars (t : Nat) (w : Word) (v : Vars) : Vars :=
  match selector t v.b v.c v.d, roundK t with
  | some f, some k => ⟨add32 [rotl 5 v.a, f, v.e, k, w], v.a, rotl 30 v.b, v.c, v.d⟩
  | _, _ => v

/-- The working variables after the rounds `0 .. n-1`. -/
def varsAfter (S : Vector Word 5) (X : Vector Word 16) : Nat → Vars
  | 0 => ⟨S[0], S[1], S[2], S[3], S[4]⟩
  | n + 1 => roundVars n (scheduleWord X n) (varsAfter S X n)

/-- R151: `Compress(S, X)`. -/
def compress (S : Vector Word 5) (X : Vector Word 16) : Vector Word 5 :=
  let v := varsAfter S X 80
  #v[add32 [S[0], v.a], add32 [S[1], v.b], add32 [S[2], v.c], add32 [S[3], v.d], add32 [S[4], v.e]]

/-- R172, R199: the fold over the blocks, from `IV`. -/
def hashBlocks (Xs : List (Vector Word 16)) : Vector Word 5 := Xs.foldl compress iv

end Sys2Proof.Machine
end

