-- ==== Sys2Proof/Machine/Framing.lean ====
section
/-! DEFINITION. The host-side framing (44_host_framing.md), which is not hardware: the contract that makes the engine's
five words the source's `digest(input)`.  ByteSource, Padder, BlockParser, the reference function and the rendering. -/

namespace Sys2Proof.Machine

/-- An input of `digest` (R191): text, as the list of its code units, or something else. -/
inductive HostInput where
  | text (codeUnits : List Nat)
  | nonText
  deriving DecidableEq, Repr

/-- The host-side errors (R198) and the precondition of R194. -/
inductive FramingError where
  /-- R191. -/
  | unsupportedInputType
  /-- R192, D18: a code unit above 255. -/
  | byteOutOfRange
  /-- R194, U1: a message of `2^61` bytes or more. -/
  | messageTooLong
  /-- R195: a padded length that is no multiple of 64. -/
  | incompleteBlock
  /-- R195: fewer than 4 bytes for a word. -/
  | incompleteWord
  deriving DecidableEq, Repr

/-- ByteSource on code units (R191, R192): one byte per code unit. -/
def bytesOfUnits : List Nat → Except FramingError (List Byte)
  | [] => .ok []
  | c :: cs =>
    if c ≤ 255 then
      match bytesOfUnits cs with
      | .ok bs => .ok (BitVec.ofNat 8 c :: bs)
      | .error e => .error e
    else .error .byteOutOfRange

/-- ByteSource (R191). -/
def byteSource : HostInput → Except FramingError (List Byte)
  | .text us => bytesOfUnits us
  | .nonText => .error .unsupportedInputType

/-- `n = ceil((L + 9) / 64)` (R193). -/
def blockCount (L : Nat) : Nat := (L + 9 + 63) / 64

/-- `k = 64*n - 9 - L` (R193). -/
def zeroCount (L : Nat) : Nat := 64 * blockCount L - 9 - L

/-- The 8-byte big-endian form of a number (R193). -/
def be64 (x : Nat) : List Byte := [7, 6, 5, 4, 3, 2, 1, 0].map fun j => BitVec.ofNat 8 (x / 2 ^ (8 * j))

/-- Padder (R193), for messages within the limit of R194. -/
def pad (m : List Byte) : Except FramingError (List Byte) :=
  if m.length < 2 ^ 61 then
    .ok (m ++ 0x80#8 :: (List.replicate (zeroCount m.length) 0x00#8 ++ be64 (8 * m.length)))
  else .error .messageTooLong

/-- Four bytes to a word, most significant byte first (R58, R195). -/
def packWord (a b c d : Byte) : Word := a ++ b ++ c ++ d

/-- The words of a byte sequence, four bytes each (R195). -/
def wordsOfBytes : List Byte → Except FramingError (List Word)
  | [] => .ok []
  | a :: b :: c :: d :: rest =>
    match wordsOfBytes rest with
    | .ok ws => .ok (packWord a b c d :: ws)
    | .error e => .error e
  | _ => .error .incompleteWord

/-- The blocks of a word sequence, sixteen words each, in order (R195). -/
def blocksOfWords (ws : List Word) : List (Vector Word 16) :=
  (List.range (ws.length / 16)).map fun k => Vector.ofFn fun i => ws.getD (16 * k + i.val) 0#32

/-- BlockParser (R195). -/
def parseBlocks (p : List Byte) : Except FramingError (List (Vector Word 16)) :=
  if p.length % 64 ≠ 0 then .error .incompleteBlock
  else
    match wordsOfBytes p with
    | .ok ws => .ok (blocksOfWords ws)
    | .error e => .error e

/-- The blocks of a message: Padder, then BlockParser (R190). -/
def messageBlocks (m : List Byte) : Except FramingError (List (Vector Word 16)) :=
  match pad m with
  | .ok p => parseBlocks p
  | .error e => .error e

/-- The reference function `SHA1(m)` (R199). -/
def sha1 (m : List Byte) : Except FramingError (Vector Word 5) :=
  match messageBlocks m with
  | .ok Xs => .ok (hashBlocks Xs)
  | .error e => .error e

/-- `digest(input)` (R190, R199). -/
def digest (input : HostInput) : Except FramingError (Vector Word 5) :=
  match byteSource input with
  | .ok m => sha1 m
  | .error e => .error e

/-- A lowercase hexadecimal digit. -/
def hexDigit (n : Nat) : Char := if n < 10 then Char.ofNat (48 + n) else Char.ofNat (87 + n)

/-- A word as exactly eight lowercase hexadecimal digits, leading zeros kept (R197). -/
def renderWord (w : Word) : List Char := [7, 6, 5, 4, 3, 2, 1, 0].map fun j => hexDigit (w.toNat / 16 ^ j % 16)

/-- The text form of a digest, `H[0]` first, the groups kept apart by `separator`, a parameter of the host's renderer: no
separator is required (R59, R197, U5). -/
def renderWith (separator : List Char) (d : Vector Word 5) : List Char :=
  renderWord d[0] ++ separator ++ renderWord d[1] ++ separator ++ renderWord d[2] ++ separator ++ renderWord d[3] ++
    separator ++ renderWord d[4]

/-- The rendering the model's host uses: single spaces between the groups, as a comparison with the strings of SHA1JS §8 asks.
For any other display the spec leaves the separator open (R197, U5): DESIGN CHOICE, log entry 20. -/
def render (d : Vector Word 5) : List Char := renderWith [' '] d

/-- The 20-byte form, most significant byte of each word first (R59, general knowledge GK1). -/
def digestBytes (d : Vector Word 5) : List Byte :=
  d.toList.flatMap fun w => [3, 2, 1, 0].map fun j => BitVec.ofNat 8 (w.toNat / 2 ^ (8 * j))

end Sys2Proof.Machine
end

