-- ==== Sys2Proof/Machine/Driver.lean ====
section
/-! DEFINITION. The host's computation of `digest` through the engine (44_host_framing.md R190): stages 1 to 3 make the blocks,
stage 4 is the host program, its last five reads are the digest, stage 5 renders it. -/

namespace Sys2Proof.Machine

/-- Stages 1 to 3, strictly left to right: ByteSource, Padder, BlockParser; the first error ends them (R190). -/
def inputBlocks (input : HostInput) : Except FramingError (List (Vector Word 16)) :=
  match byteSource input with
  | .ok m => messageBlocks m
  | .error e => .error e

/-- Stage 4: what the host issues for an input.  On an error in stages 1 to 3 it issues no transaction, or, where it has `begun`
one already, `INIT` to abandon it (R190). -/
def hostProgram (begun : Bool) (input : HostInput) : List HostItem :=
  match inputBlocks input with
  | .ok Xs => driverScript Xs
  | .error _ => if begun then [initItem] else []

/-- One digest word as a read delivered it: a read without error. -/
def Response.digestWord (r : Response) : Option Word := if r.we = false ∧ r.err = false then some r.rdata else none

/-- The five words that the last five answers deliver, `DIGEST0` first; none if one of them is no read or reports an error. -/
def digestRead (rs : List Response) : Option (Vector Word 5) :=
  match (rs.drop (rs.length - 5)).map Response.digestWord with
  | [some a, some b, some c, some d, some e] => some #v[a, b, c, d, e]
  | _ => none

/-- What the caller of `digest` gets after a run that ended in `s`: an error of stages 1 to 3 as it is, else the words read
(R190: "all errors propagate synchronously"; no words where the engine answered an error, R198). -/
def hostResult (input : HostInput) (s : State) : Except FramingError (Option (Vector Word 5)) :=
  match inputBlocks input with
  | .ok _ => .ok (digestRead s.responses)
  | .error e => .error e

/-- Stage 5, optional: the text of what the caller got, with the model's separator (log entry 20). -/
def hostText (input : HostInput) (s : State) : Except FramingError (Option (List Char)) :=
  match hostResult input s with
  | .ok d => .ok (d.map render)
  | .error e => .error e

end Sys2Proof.Machine
end

