-- ==== Sys2Proof/Machine/Port.lean ====
section
/-! DEFINITION. The host port's transactions written as 43_commands.md R169 writes them: over the raw fields `(we, addr,
wdata)`, the conditions tested in that rule's order.  The step itself decodes a transaction word and runs the instruction
(Agents.lean); that the two agree is one of the statements. -/

namespace Sys2Proof.Machine

/-- Step 4 of R169: the legal transactions. -/
def portLegal (we : Bool) (addr : BitVec 6) (wdata : Word) (s : State) : Result :=
  if we = false ∧ addr = 0x01#6 then execRdstat s
  else if h : we = false ∧ 0x20 ≤ addr.toNat ∧ addr.toNat ≤ 0x24 then readDigest ⟨addr.toNat - 0x20, by omega⟩ s
  else if we = true ∧ 0x10 ≤ addr.toNat ∧ addr.toNat ≤ 0x1F then
    execWrblk (BitVec.ofNat 4 (addr.toNat - 0x10)) wdata s
  else if wdata = 1#32 then execInit s
  else if wdata = 2#32 then execNext s
  else if wdata = 3#32 then execFinal s
  else .next (s.raiseTxn we .eCmd)

/-- R169, steps 1 to 3, then step 4. -/
def portTransaction (we : Bool) (addr : BitVec 6) (wdata : Word) (s : State) : Result :=
  if s.phase = .fault then
    if we = false ∧ addr = 0x01#6 then execRdstat s
    else if we = true ∧ addr = 0x00#6 ∧ wdata = 1#32 then execInit s
    else .next (s.refuse we)
  else if (0x02 ≤ addr.toNat ∧ addr.toNat ≤ 0x0F) ∨ (0x25 ≤ addr.toNat ∧ addr.toNat ≤ 0x3F) then
    .next (s.raiseTxn we .eAddr)
  else if we = false ∧ (addr = 0x00#6 ∨ (0x10 ≤ addr.toNat ∧ addr.toNat ≤ 0x1F)) then .next (s.raiseTxn we .eAccess)
  else if we = true ∧ (addr = 0x01#6 ∨ (0x20 ≤ addr.toNat ∧ addr.toNat ≤ 0x24)) then .next (s.raiseTxn we .eAccess)
  else portLegal we addr wdata s

/-- `MemRead(addr, 4)` (R8, R52); write data are ignored on reads (R51). -/
def memRead (addr : BitVec 6) (s : State) : Result := portTransaction false addr 0#32 s

/-- `MemWrite(addr, 4, v)` (R8, R52). -/
def memWrite (addr : BitVec 6) (v : Word) (s : State) : Result := portTransaction true addr v s

end Sys2Proof.Machine
end

