-- ==== Sys2Proof/Machine/System.lean ====
section
/-! DEFINITION. Several engine instances (10_state.md R35, 60_exceptions.md R231, parameter P3): independent machines, each
with its own port, host and state; they share only the constants. -/

namespace Sys2Proof.Machine

/-- The instances of a system, by their place. -/
abbrev System := List State

/-- Instance `k` after reset: its unspecified registers hold free values, its schedule is open, and neither is tied to another
instance's (R231, R240 "in each instance", U10; log entry 10). -/
def System.resetOf (k : Nat) : State := { State.reset with draws := Config.firstDraw k }.resetEvent

/-- All instances after reset; there is no start-up order (R231). -/
def System.reset : System := (List.range Config.nInstances).map System.resetOf

/-- One step of instance `k`; no other instance takes part. -/
def System.stepAt (sys : System) (k : Nat) : Host.Outcome System Fault Refusal :=
  match sys[k]? with
  | none => .next sys
  | some s =>
    match step s with
    | .next s' => .next (sys.set k s')
    | .fault r => .fault r
    | .refused r => .refused r

end Sys2Proof.Machine
end

