-- ==== Sys2Proof/Safety.lean ====
section
/-! DEFINITION. What counts as a good state and a good run, in the terms the statements use: the invariants of
10_state.md R36, the end of a run (43_commands.md R171), and which registers a run can still depend on (R36 item 4). -/

namespace Sys2Proof.Machine

/-! ### Frames: what a step leaves as it was -/

/-- Every register of R20 is unchanged, and no fault was entered. -/
structure SameRegs (s u : State) : Prop where
  H : u.H = s.H
  A : u.A = s.A
  B : u.B = s.B
  C : u.C = s.C
  D : u.D = s.D
  E : u.E = s.E
  W : u.W = s.W
  M : u.M = s.M
  MV : u.MV = s.MV
  phase : u.phase = s.phase
  seq : u.seq = s.seq
  t : u.t = s.t
  err : u.err = s.err
  faultLog : u.faultLog = s.faultLog

/-- The host got exactly this one answer; its program and the schedule are unchanged. -/
structure Answered (s u : State) (we err : Bool) (rdata : Word) : Prop where
  responses : u.responses = s.responses ++ [⟨we, err, rdata⟩]
  program : u.program = s.program
  turns : u.turns = s.turns
  draws : u.draws = s.draws

/-- The host got no answer; its program and the schedule are unchanged. -/
structure NotAnswered (s u : State) : Prop where
  responses : u.responses = s.responses
  program : u.program = s.program
  turns : u.turns = s.turns
  draws : u.draws = s.draws

/-- Fault entry (R216): what is written, and that `H`, `A..E`, `W`, `M`, `MV` keep their values. -/
structure FaultEntered (s u : State) (c : FaultCode) : Prop where
  phase : u.phase = .fault
  err : u.err = c.code
  seq : u.seq = .idle
  t : u.t = 0#7
  faultLog : u.faultLog = s.faultLog ++ [c]
  H : u.H = s.H
  A : u.A = s.A
  B : u.B = s.B
  C : u.C = s.C
  D : u.D = s.D
  E : u.E = s.E
  W : u.W = s.W
  M : u.M = s.M
  MV : u.MV = s.MV

/-- Running `i` in `s` enters the fault `c` and answers `rsp_err = 1`, `rsp_rdata = 0`; nothing else happens (R216). -/
def RaisesFault (i : Instr) (s : State) (we : Bool) (c : FaultCode) : Prop :=
  ∃ u, exec i s = .next u ∧ FaultEntered s u c ∧ Answered s u we true 0#32

/-- In `s` the transaction `i` is refused: `rsp_err = 1`, `rsp_rdata = 0`, no state change (R170). -/
def RefusesInFault (s : State) (i : Instr) : Prop :=
  ∃ u we, exec i s = .next u ∧ SameRegs s u ∧ Answered s u we true 0#32

/-- In `s` the micro-operation `i` enters the fault `E_ROUND_INDEX`; no transaction carries it (R224). -/
def RaisesRoundIndex (s : State) (i : Instr) : Prop :=
  ∃ u, exec i s = .next u ∧ FaultEntered s u .eRoundIndex ∧ NotAnswered s u

/-- The program counter after a counted micro-operation at index `t` (R132, R142). -/
def PcAfter (s u : State) (t : BitVec 7) (done : Seq) : Prop :=
  (t.toNat < 79 → u.seq = s.seq ∧ u.t = t + 1#7) ∧ (t.toNat = 79 → u.seq = done ∧ u.t = 0#7)

/-- The effect of one `ROUND` (R142) at `t` with selector value `f` and constant `k`: `u` is the state after. -/
structure RoundEffect (s u : State) (t : BitVec 7) (f k : Word) : Prop where
  A : ∃ h : t.toNat < 80, u.A.toNat =
    ((s.A.rotateLeft 5).toNat + f.toNat + s.E.toNat + k.toNat + (s.W[t.toNat]'h).toNat) % 2 ^ 32
  B : u.B = s.A
  C : u.C = s.B.rotateLeft 30
  D : u.D = s.C
  E : u.E = s.D
  pc : PcAfter s u t .feed
  H : u.H = s.H
  W : u.W = s.W
  M : u.M = s.M
  MV : u.MV = s.MV
  phase : u.phase = s.phase
  err : u.err = s.err
  faultLog : u.faultLog = s.faultLog
  host : NotAnswered s u

/-- The next thing the host does is the instruction `i`. -/
def State.headIs (s : State) (i : Instr) : Prop := ∃ w rest, s.program = .txn w :: rest ∧ decodeTW w = .instr i

/-- The next thing from outside is a reset. -/
def State.headIsReset (s : State) : Prop := ∃ rest, s.program = .reset :: rest

/-! ### Invariants -/

/-- R36 item 3, R29: the legal program counters. -/
def State.legalPc (s : State) : Bool :=
  match s.seq with
  | .idle | .unpack | .feed => s.t == 0#7
  | .expand => indexIn 16 79 s.t
  | .round => indexIn 0 79 s.t

/-- The invariants of R36, items 1, 2, 3 and 5 (5 in the form every step keeps: `H = IV` as long as `phase = EMPTY`), and
the codes `err` can hold (R30, R211).  Item 6 holds by the types; item 4 is `AgreeOnLive` below. -/
structure State.Inv (s : State) : Prop where
  finalIdle : s.phase = .final → s.seq = .idle
  faultIdle : s.phase = .fault → s.seq = .idle
  errIff : s.err ≠ 0#4 ↔ s.phase = .fault
  errCode : s.err.toNat ≤ 8
  pc : s.legalPc = true
  emptyIV : s.phase = .empty → s.H = iv

/-! ### Runs -/

/-- `n` steps, stopping at the first fault or refusal. -/
def run : Nat → State → Result
  | 0, s => .next s
  | n + 1, s =>
    match step s with
    | .next u => run n u
    | .fault r => .fault r
    | .refused r => .refused r

/-- R171: a run ends when the host has no instruction left and `seq = IDLE`. -/
def State.ended (s : State) : Prop := s.program = [] ∧ s.seq = .idle

/-- R171: it ends well when in addition `phase != FAULT` and no transaction returned `rsp_err = 1`. -/
def State.endsWell (s : State) : Prop := s.ended ∧ s.phase ≠ .fault ∧ ∀ r ∈ s.responses, r.err = false

/-! ### Pairs of states -/

/-- The schedule words a run can still read before writing them (R36 item 4). -/
def State.liveW (s : State) (i : Nat) : Prop :=
  match s.seq with
  | .expand => i < s.t.toNat
  | .unpack => True
  | .round => s.t.toNat ≤ i
  | .idle | .feed => False

/-- Two states that differ at most in registers no run reads before writing them: `A..E` outside `ROUND` and `FEED`, schedule
words not yet written, block words whose written-flag is 0 (R22, R26, R36 item 4, R240). -/
structure AgreeOnLive (s u : State) : Prop where
  H : s.H = u.H
  MV : s.MV = u.MV
  phase : s.phase = u.phase
  seq : s.seq = u.seq
  t : s.t = u.t
  err : s.err = u.err
  program : s.program = u.program
  responses : s.responses = u.responses
  turns : s.turns = u.turns
  draws : s.draws = u.draws
  faultLog : s.faultLog = u.faultLog
  vars : s.seq = .round ∨ s.seq = .feed → s.A = u.A ∧ s.B = u.B ∧ s.C = u.C ∧ s.D = u.D ∧ s.E = u.E
  W : ∀ i (h : i < 80), s.liveW i → s.W[i] = u.W[i]
  M : ∀ i (h : i < 16), s.MV.getLsbD i = true → s.M[i] = u.M[i]

/-- Two states with the same control state: everything but the data registers `H`, `A..E`, `W`, `M` and the words the host was
answered (R33). -/
structure SameControl (s u : State) : Prop where
  MV : s.MV = u.MV
  phase : s.phase = u.phase
  seq : s.seq = u.seq
  t : s.t = u.t
  err : s.err = u.err
  program : s.program = u.program
  turns : s.turns = u.turns
  draws : s.draws = u.draws
  faultLog : s.faultLog = u.faultLog
  errors : s.responses.map (fun r => (r.we, r.err)) = u.responses.map (fun r => (r.we, r.err))

/-- Two states the host cannot tell apart by any transaction (R34): the same `STATUS`, and the same `H` where `phase = FINAL`. -/
structure SameToHost (s u : State) : Prop where
  status : s.statusWord = u.statusWord
  digest : s.phase = .final → s.H = u.H

end Sys2Proof.Machine
end

