-- ==== Sys2Proof/Certificates/Slice0/Obligations.lean ====
section
/-! DEFINITION. The statements for the provers.  Where a statement quantifies over a state it covers every value of the
model's own fields (`turns`, `draws`, `faultLog`), so it covers every schedule. -/

open Sys2Proof Sys2Proof.Machine

/-! ### Encoding -/

/-- R81, R82, R86: decoding the word of a well-formed instruction gives it back, with every operand. -/
def Obligations.DecodeOfEncode : Prop :=
  ∀ i : Instr, i.wf = true → decode (encode i) = some i

/-- R81, R82, R83, R86: a word decodes only to well-formed instructions, and it is that instruction's own word, up to the
field `wdata` that reads ignore. -/
def Obligations.EncodeOfDecode : Prop :=
  ∀ (c : CodeWord) (i : Instr), decode c = some i →
    i.wf = true ∧
    (encode i = c ∨ ∃ w, c = .tw w ∧ w.getLsbD 39 = false ∧ encode i = .tw (w &&& 0xFF00000000#40))

/-- R82: the rows of the decode table, by `match` and `mask`, and the four illegal classes, by field.  (Every word decodes to
exactly one verdict, and the rows name all of them.) -/
def Obligations.TransactionWordRows : Prop :=
  ∀ w : BitVec 40,
    (decodeTW w = .instr .init ↔ w &&& 0xFFFFFFFFFF#40 = 0x8000000001#40) ∧
    (decodeTW w = .instr .next ↔ w &&& 0xFFFFFFFFFF#40 = 0x8000000002#40) ∧
    (decodeTW w = .instr .final ↔ w &&& 0xFFFFFFFFFF#40 = 0x8000000003#40) ∧
    (∀ i d, decodeTW w = .instr (.wrblk i d) ↔
      w &&& 0xF000000000#40 = 0x9000000000#40 ∧ i = w.extractLsb' 32 4 ∧ d = w.extractLsb' 0 32) ∧
    (decodeTW w = .instr .rdstat ↔ w &&& 0xFF00000000#40 = 0x0100000000#40) ∧
    (decodeTW w = .instr .rddig0 ↔ w &&& 0xFF00000000#40 = 0x2000000000#40) ∧
    (decodeTW w = .instr .rddig1 ↔ w &&& 0xFF00000000#40 = 0x2100000000#40) ∧
    (decodeTW w = .instr .rddig2 ↔ w &&& 0xFF00000000#40 = 0x2200000000#40) ∧
    (decodeTW w = .instr .rddig3 ↔ w &&& 0xFF00000000#40 = 0x2300000000#40) ∧
    (decodeTW w = .instr .rddig4 ↔ w &&& 0xFF00000000#40 = 0x2400000000#40) ∧
    (decodeTW w = .illegalCommand ↔ w.getLsbD 39 = true ∧ w.getLsbD 38 = false ∧ w.extractLsb' 32 6 = 0x00#6 ∧
      w.extractLsb' 0 32 ≠ 1#32 ∧ w.extractLsb' 0 32 ≠ 2#32 ∧ w.extractLsb' 0 32 ≠ 3#32) ∧
    (decodeTW w = .illegalDirection ↔ w.getLsbD 38 = false ∧
      ((w.getLsbD 39 = false ∧ (w.extractLsb' 32 6 = 0x00#6 ∨
          0x10#6 ≤ w.extractLsb' 32 6 ∧ w.extractLsb' 32 6 ≤ 0x1F#6)) ∨
        (w.getLsbD 39 = true ∧ (w.extractLsb' 32 6 = 0x01#6 ∨
          0x20#6 ≤ w.extractLsb' 32 6 ∧ w.extractLsb' 32 6 ≤ 0x24#6)))) ∧
    (decodeTW w = .illegalAddress ↔ w.getLsbD 38 = false ∧
      ((0x02#6 ≤ w.extractLsb' 32 6 ∧ w.extractLsb' 32 6 ≤ 0x0F#6) ∨
        (0x25#6 ≤ w.extractLsb' 32 6 ∧ w.extractLsb' 32 6 ≤ 0x3F#6))) ∧
    (decodeTW w = .notTransaction ↔ w.getLsbD 38 = true) ∧
    (((∃ i, decodeTW w = .instr i ∧ i.agent = .host) ∨ decodeTW w = .illegalCommand ∨ decodeTW w = .illegalDirection ∨
      decodeTW w = .illegalAddress ∨ decodeTW w = .notTransaction))

/-- R86: what every sequencer word stands for.  The rows R86 does not list are the model's (log entry 9, DEDUCED): `UNPACK` and
`FEED` with `t != 0` are the bad index, `IDLE` with `t != 0` is the idle engine. -/
def Obligations.SequencerWordMap : Prop :=
  ∀ t : BitVec 7,
    decodeSW (0#3 ++ t) = .selects .engineIdle ∧
    (decodeSW (1#3 ++ t) = if 16 ≤ t.toNat ∧ t.toNat ≤ 79 then .selects (.instr (.expand t)) else .selects .roundIndex) ∧
    (decodeSW (2#3 ++ t) = if t = 0#7 then .selects (.instr .unpack) else .selects .roundIndex) ∧
    (decodeSW (3#3 ++ t) =
      match t.toNat / 20 with
      | 0 => .selects (.instr (.roundCh t))
      | 1 => .selects (.instr (.roundPar1 t))
      | 2 => .selects (.instr (.roundMaj t))
      | 3 => .selects (.instr (.roundPar2 t))
      | _ => .selects .roundIndex) ∧
    (decodeSW (4#3 ++ t) = if t = 0#7 then .selects (.instr .feed) else .selects .roundIndex) ∧
    decodeSW (5#3 ++ t) = .reservedSeq ∧ decodeSW (6#3 ++ t) = .reservedSeq ∧ decodeSW (7#3 ++ t) = .reservedSeq

/-- R81, R82 and the decode table of 95_test_vectors.md 7.1, with program 7's sequencer words: words written out decode to what
the spec says they are. -/
def Obligations.WrittenOutWordsDecode : Prop :=
  decodeTW 0x8000000001#40 = .instr .init ∧ decodeTW 0x8000000002#40 = .instr .next ∧
  decodeTW 0x8000000003#40 = .instr .final ∧ decodeTW 0x95deadbeef#40 = .instr (.wrblk 5#4 0xdeadbeef#32) ∧
  decodeTW 0x01deadbeef#40 = .instr .rdstat ∧ decodeTW 0x2400000000#40 = .instr .rddig4 ∧
  decodeTW 0x8000010001#40 = .illegalCommand ∧ decodeTW 0x1f00000000#40 = .illegalDirection ∧
  decodeTW 0x8f00000000#40 = .illegalAddress ∧ decodeTW 0xc000000001#40 = .notTransaction ∧
  decodeSW 0x090#10 = .selects (.instr (.expand 16#7)) ∧ decodeSW 0x100#10 = .selects (.instr .unpack) ∧
  decodeSW 0x194#10 = .selects (.instr (.roundPar1 20#7)) ∧ decodeSW 0x1cf#10 = .selects (.instr (.roundPar2 79#7)) ∧
  decodeSW 0x200#10 = .selects (.instr .feed)

/-- R89: every line of the command syntax with its operands in range becomes the one transaction word of that instruction, and
one out of range becomes nothing; a raw form carries its fields, and `RD` carries `wdata` 0. -/
def Obligations.AssemblyGivesTheInstruction : Prop :=
  (∃ w, Asm.init.items = some [.txn w] ∧ decodeTW w = .instr .init) ∧
  (∃ w, Asm.next.items = some [.txn w] ∧ decodeTW w = .instr .next) ∧
  (∃ w, Asm.final.items = some [.txn w] ∧ decodeTW w = .instr .final) ∧
  (∃ w, Asm.rdstat.items = some [.txn w] ∧ decodeTW w = .instr .rdstat) ∧
  (∀ i imm : Nat,
    (i ≤ 15 → imm < 2 ^ 32 → ∃ w, (Asm.wrblk i imm).items = some [.txn w] ∧
      decodeTW w = .instr (.wrblk (BitVec.ofNat 4 i) (BitVec.ofNat 32 imm))) ∧
    (15 < i ∨ 2 ^ 32 ≤ imm → (Asm.wrblk i imm).items = none)) ∧
  (∀ i : Nat,
    (∀ h : i < 5, ∃ w, (Asm.rddig i).items = some [.txn w] ∧ decodeTW w = .instr (Instr.rddig ⟨i, h⟩)) ∧
    (4 < i → (Asm.rddig i).items = none)) ∧
  (∀ a imm : Nat,
    (a ≤ 0x3F → imm < 2 ^ 32 → ∃ w, (Asm.wr a imm).items = some [.txn w] ∧ w.getLsbD 39 = true ∧
      w.getLsbD 38 = false ∧ (w.extractLsb' 32 6).toNat = a ∧ (w.extractLsb' 0 32).toNat = imm) ∧
    (0x3F < a ∨ 2 ^ 32 ≤ imm → (Asm.wr a imm).items = none)) ∧
  (∀ a : Nat,
    (a ≤ 0x3F → ∃ w, (Asm.rd a).items = some [.txn w] ∧ w.getLsbD 39 = false ∧
      w.getLsbD 38 = false ∧ (w.extractLsb' 32 6).toNat = a ∧ w.extractLsb' 0 32 = 0#32) ∧
    (0x3F < a → (Asm.rd a).items = none))

/-- R91: the expansions of the pseudo-instructions, and R90: a program is its lines in order. -/
def Obligations.PseudoInstructionsExpand : Prop :=
  (∀ ws : Vector Word 16,
    (Asm.block ws).items = assemble ((List.finRange 16).map fun i => .wrblk i.val ws[i].toNat) ∧
    (Asm.hashblk ws).items = assemble [.block ws, .next, .wait]) ∧
  Asm.wait.items = some [.wait] ∧
  Asm.digest.items = assemble [.rddig 0, .rddig 1, .rddig 2, .rddig 3, .rddig 4] ∧
  (∀ p q : List Asm, ∀ x y, assemble p = some x → assemble q = some y → assemble (p ++ q) = some (x ++ y)) ∧
  (∀ Xs : List (Vector Word 16), assemble (.init :: (Xs.map Asm.hashblk ++ [.final, .digest])) = some (driverScript Xs))

/-! ### The step -/

/-- R160, R52: where the host goes and its next item is a transaction word, the step is what that word decodes to, on the state
with the word taken off the program; for the word of an instruction it is that instruction. -/
def Obligations.StepRunsHostTransaction : Prop :=
  ∀ (s : State) (w : BitVec 40) (rest : List HostItem), s.program = .txn w :: rest →
    (s.seq = .idle → step s = runVerdict (w.getLsbD 39) (decodeTW w) { s with program := rest }) ∧
    (s.seq ≠ .idle → s.turn ≠ 0 →
      step s = runVerdict (w.getLsbD 39) (decodeTW w) { s.hostTurn with program := rest }) ∧
    ∀ i, decodeTW w = .instr i →
      (s.seq = .idle → step s = exec i { s with program := rest }) ∧
      (s.seq ≠ .idle → s.turn ≠ 0 → step s = exec i { s.hostTurn with program := rest })

/-- R91, R241: where the host goes and its next item is `WAIT`, the step is one `RDSTAT`, and `WAIT` stays as long as the engine
is busy; a reset item is the reset event. -/
def Obligations.StepRunsWaitAndReset : Prop :=
  ∀ (s : State) (rest : List HostItem),
    (s.program = .wait :: rest →
      (s.seq = .idle → step s = exec .rdstat { s with program := rest }) ∧
      (s.seq ≠ .idle → s.turn ≠ 0 → step s = exec .rdstat s.hostTurn)) ∧
    (s.program = .reset :: rest →
      (s.seq = .idle → step s = .next { s with program := rest }.resetEvent) ∧
      (s.seq ≠ .idle → s.turn ≠ 0 → step s = .next { s.hostTurn with program := rest }.resetEvent))

/-- R160, R86: where the engine goes, the step is the micro-operation that `SW = {seq, t}` selects. -/
def Obligations.StepRunsMicroOperation : Prop :=
  ∀ (s : State) (i : Instr), decodeSW s.sw = .selects (.instr i) →
    (s.program = [] → step s = exec i s) ∧
    (s.program ≠ [] → s.turn = 0 → step s = exec i s.engineTurn)

/-- R60, R160: what a turn changes, on top of the step itself: the schedule alone.  (`turns` and `draws` are the model's own,
log entry 2; the statement holds for every value of them.) -/
def Obligations.TurnsAreOnlyTheSchedule : Prop :=
  ∀ s : State, (∃ ts n, s.hostTurn = { s with turns := ts, draws := n }) ∧
    (∃ ts n, s.engineTurn = { s with turns := ts, draws := n }) ∧
    (s.turn ≠ 0 → s.hostTurn.turn = s.turn - 1)

/-- R82, U11: the host's step is refused exactly on a word with bit 38 set, which is no transaction. -/
def Obligations.NotATransactionIsRefused : Prop :=
  ∀ (s : State) (r : Refusal), hostStep s = .refused r ↔
    r = .notATransaction ∧ ∃ w rest, s.program = .txn w :: rest ∧ w.getLsbD 38 = true

/-- R169: handling a transaction by decoding its word and running the instruction agrees with the procedure of R169 over the
raw fields, in every state. -/
def Obligations.DispatchFollowsProcedure : Prop :=
  ∀ (s : State) (w : BitVec 40), w.getLsbD 38 = false →
    runVerdict (w.getLsbD 39) (decodeTW w) s =
      portTransaction (w.getLsbD 39) (w.extractLsb' 32 6) (w.extractLsb' 0 32) s

/-! ### Host commands: result, frame and faults -/

/-- R161: `INIT`, in every state; no other command is accepted in phase `FAULT`. -/
def Obligations.InitLoadsIV : Prop :=
  decodeTW 0x8000000001#40 = .instr .init ∧
  ∀ s : State, ∃ u, exec .init s = .next u ∧
    u.H = #v[0x67452301#32, 0xefcdab89#32, 0x98badcfe#32, 0x10325476#32, 0xc3d2e1f0#32] ∧
    u.phase = .empty ∧ u.err = 0#4 ∧ u.seq = .idle ∧ u.t = 0#7 ∧ u.MV = 0#16 ∧
    u.A = s.A ∧ u.B = s.B ∧ u.C = s.C ∧ u.D = s.D ∧ u.E = s.E ∧ u.W = s.W ∧ u.M = s.M ∧
    u.faultLog = s.faultLog ∧ Answered s u true false 0#32 ∧ u.statusWord = 0x00000000#32 ∧
    (s.phase = .fault → RefusesInFault s .next ∧ RefusesInFault s .final)

/-- R162 with `LOADBLK` (R131): `NEXT` accepted, and its three faults in the order of the checks. -/
def Obligations.NextStartsTheBlock : Prop :=
  decodeTW 0x8000000002#40 = .instr .next ∧
  (∀ s : State, s.phase ≠ .fault → s.seq = .idle → s.phase ≠ .final → s.MV = 0xFFFF#16 →
    ∃ u, exec .next s = .next u ∧
      (∀ i (h : i < 80), u.W[i] = if h' : i < 16 then s.M[i] else s.W[i]) ∧
      u.MV = 0#16 ∧ u.t = 16#7 ∧ u.seq = .expand ∧
      u.H = s.H ∧ u.A = s.A ∧ u.B = s.B ∧ u.C = s.C ∧ u.D = s.D ∧ u.E = s.E ∧ u.M = s.M ∧
      u.phase = s.phase ∧ u.err = s.err ∧ u.faultLog = s.faultLog ∧
      Answered s u true false 0#32 ∧ u.busy = true ∧ u.blkFull = false) ∧
  (∀ s : State, s.phase ≠ .fault →
    (s.seq ≠ .idle → RaisesFault .next s true .eBusy) ∧
    (s.seq = .idle → s.phase = .final → RaisesFault .next s true .ePhase) ∧
    (s.seq = .idle → s.phase ≠ .final → s.MV ≠ 0xFFFF#16 → RaisesFault .next s true .eIncompleteBlock))

/-- R163: `FINAL` accepted: the phase, and nothing else of the registers; `H` is frozen and its words can be read; and its two
faults. -/
def Obligations.FinalFreezesTheDigest : Prop :=
  decodeTW 0x8000000003#40 = .instr .final ∧
  (∀ s : State, s.seq = .idle → s.phase = .accum →
    ∃ u, exec .final s = .next u ∧ u.phase = .final ∧
      u.H = s.H ∧ u.A = s.A ∧ u.B = s.B ∧ u.C = s.C ∧ u.D = s.D ∧ u.E = s.E ∧ u.W = s.W ∧ u.M = s.M ∧
      u.MV = s.MV ∧ u.seq = s.seq ∧ u.t = s.t ∧ u.err = s.err ∧ u.faultLog = s.faultLog ∧
      Answered s u true false 0#32 ∧ u.digestValid = true ∧ u.statusWord.extractLsb' 4 2 = 2#2 ∧
      (∀ i : Fin 5, ∃ v, exec (Instr.rddig i) u = .next v ∧ Answered u v false false s.H[i]) ∧
      (∀ (i : Instr) (v : State), i.agent = .host → i ≠ .init → exec i u = .next v → v.H = s.H)) ∧
  (∀ s : State, s.phase ≠ .fault →
    (s.seq ≠ .idle → RaisesFault .final s true .eBusy) ∧
    (s.seq = .idle → s.phase ≠ .accum → RaisesFault .final s true .ePhase))

/-- R164: `WRBLK i, data` accepted: one block word and its flag, and nothing else; and its two faults. -/
def Obligations.WrblkWritesOneWord : Prop :=
  (∀ i d, decodeTW (0x9#4 ++ i ++ d : BitVec (4 + 4 + 32)) = .instr (.wrblk i d)) ∧
  (∀ (s : State) (i : BitVec 4) (d : Word), s.phase ≠ .fault → s.seq = .idle → s.phase ≠ .final →
    ∃ u, exec (.wrblk i d) s = .next u ∧
      (∀ j (h : j < 16), u.M[j] = if j = i.toNat then d else s.M[j]) ∧
      (∀ j, j < 16 → u.MV.getLsbD j = (s.MV.getLsbD j || j == i.toNat)) ∧
      u.H = s.H ∧ u.A = s.A ∧ u.B = s.B ∧ u.C = s.C ∧ u.D = s.D ∧ u.E = s.E ∧ u.W = s.W ∧
      u.phase = s.phase ∧ u.seq = s.seq ∧ u.t = s.t ∧ u.err = s.err ∧ u.faultLog = s.faultLog ∧
      Answered s u true false 0#32 ∧
      ((∀ j, j < 16 → j ≠ i.toNat → s.MV.getLsbD j = true) → u.blkFull = true)) ∧
  (∀ (s : State) (i : BitVec 4) (d : Word), s.phase ≠ .fault →
    (s.seq ≠ .idle → RaisesFault (.wrblk i d) s true .eBusy) ∧
    (s.seq = .idle → s.phase = .final → RaisesFault (.wrblk i d) s true .ePhase))

/-- R165: `RDSTAT`, in every state: the status word, and no state changes; besides `INIT` no other instruction succeeds in
phase `FAULT`. -/
def Obligations.RdstatReturnsTheStatus : Prop :=
  decodeTW 0x0100000000#40 = .instr .rdstat ∧
  ∀ s : State, ∃ u, exec .rdstat s = .next u ∧ SameRegs s u ∧
    Answered s u false false
      ((s.err ++ 0#2 ++ s.phase.bits ++ 0#2 ++ BitVec.ofBool (decide (s.MV = 0xFFFF#16)) ++
        BitVec.ofBool (decide (s.seq ≠ .idle))).setWidth 32) ∧
    (s.phase = .fault → ∀ i : Instr, i.agent = .host → i ≠ .init → i ≠ .rdstat → RefusesInFault s i)

/-- R166: `RDDIG 0` to `RDDIG 4`: the digest word in phase `FINAL`, with no state change, and the fault of the other phases. -/
def Obligations.RddigReturnsTheDigestWord : Prop :=
  (∀ i : Fin 5, decodeTW (BitVec.ofNat 8 (0x20 + i.val) ++ 0#32) = .instr (Instr.rddig i)) ∧
  (∀ s : State, s.phase = .final →
    (∃ u, exec .rddig0 s = .next u ∧ SameRegs s u ∧ Answered s u false false s.H[0]) ∧
    (∃ u, exec .rddig1 s = .next u ∧ SameRegs s u ∧ Answered s u false false s.H[1]) ∧
    (∃ u, exec .rddig2 s = .next u ∧ SameRegs s u ∧ Answered s u false false s.H[2]) ∧
    (∃ u, exec .rddig3 s = .next u ∧ SameRegs s u ∧ Answered s u false false s.H[3]) ∧
    (∃ u, exec .rddig4 s = .next u ∧ SameRegs s u ∧ Answered s u false false s.H[4])) ∧
  (∀ (s : State) (i : Fin 5), s.phase = .empty ∨ s.phase = .accum → RaisesFault (Instr.rddig i) s false .eNotFinal)

/-- R85, R51: every field of the status word, the reserved bits, and the sideband outputs. -/
def Obligations.StatusWordFields : Prop :=
  ∀ s : State,
    (s.statusWord.getLsbD 0 = true ↔ s.seq ≠ .idle) ∧
    (s.statusWord.getLsbD 1 = true ↔ s.MV = 0xFFFF#16) ∧
    s.statusWord.extractLsb' 2 2 = 0#2 ∧
    ((s.statusWord.extractLsb' 4 2 = 0#2 ↔ s.phase = .empty) ∧ (s.statusWord.extractLsb' 4 2 = 1#2 ↔ s.phase = .accum) ∧
      (s.statusWord.extractLsb' 4 2 = 2#2 ↔ s.phase = .final) ∧ (s.statusWord.extractLsb' 4 2 = 3#2 ↔ s.phase = .fault)) ∧
    s.statusWord.extractLsb' 6 2 = 0#2 ∧
    s.statusWord.extractLsb' 8 4 = s.err ∧
    s.statusWord.extractLsb' 12 20 = 0#20 ∧
    s.busy = s.statusWord.getLsbD 0 ∧
    (s.digestValid = true ↔ s.statusWord.extractLsb' 4 2 = 2#2) ∧
    (s.faultOut = true ↔ s.statusWord.extractLsb' 4 2 = 3#2)

/-! ### Micro-operations: result and frame -/

/-- R132: the sequencer words that select `EXPAND`, its effect at every legal index, and its fault at every other. -/
def Obligations.ExpandWritesOneScheduleWord : Prop :=
  (∀ (w : BitVec 10) (t : BitVec 7),
    decodeSW w = .selects (.instr (.expand t)) ↔ w = 1#3 ++ t ∧ 16 ≤ t.toNat ∧ t.toNat ≤ 79) ∧
  (∀ (s : State) (t : BitVec 7) (_ : 16 ≤ t.toNat) (_ : t.toNat ≤ 79),
    ∃ u, exec (.expand t) s = .next u ∧
      (∀ i (h : i < 80), u.W[i] =
        if i = t.toNat then
          (s.W[t.toNat - 3] ^^^ s.W[t.toNat - 8] ^^^ s.W[t.toNat - 14] ^^^ s.W[t.toNat - 16]).rotateLeft 1
        else s.W[i]) ∧
      PcAfter s u t .unpack ∧
      u.H = s.H ∧ u.A = s.A ∧ u.B = s.B ∧ u.C = s.C ∧ u.D = s.D ∧ u.E = s.E ∧ u.M = s.M ∧ u.MV = s.MV ∧
      u.phase = s.phase ∧ u.err = s.err ∧ u.faultLog = s.faultLog ∧ NotAnswered s u) ∧
  (∀ (s : State) (t : BitVec 7), s.phase ≠ .fault → t.toNat < 16 ∨ 79 < t.toNat → RaisesRoundIndex s (.expand t))

/-- R141: `UNPACK`. -/
def Obligations.UnpackCopiesTheState : Prop :=
  ∀ s : State, ∃ u, exec .unpack s = .next u ∧
    u.A = s.H[0] ∧ u.B = s.H[1] ∧ u.C = s.H[2] ∧ u.D = s.H[3] ∧ u.E = s.H[4] ∧ u.t = 0#7 ∧ u.seq = .round ∧
    u.H = s.H ∧ u.W = s.W ∧ u.M = s.M ∧ u.MV = s.MV ∧ u.phase = s.phase ∧ u.err = s.err ∧
    u.faultLog = s.faultLog ∧ NotAnswered s u

/-- R142 to R146: a round of each band, with that band's selector and constant, and the fault of an index above 79. -/
def Obligations.RoundOfEachBand : Prop :=
  (∀ (s : State) (t : BitVec 7), t.toNat ≤ 19 →
    ∃ u, exec (.roundCh t) s = .next u ∧
      RoundEffect s u t ((s.B &&& s.C) ||| (~~~s.B &&& s.D)) 0x5a827999#32) ∧
  (∀ (s : State) (t : BitVec 7), 20 ≤ t.toNat → t.toNat ≤ 39 →
    ∃ u, exec (.roundPar1 t) s = .next u ∧ RoundEffect s u t (s.B ^^^ s.C ^^^ s.D) 0x6ed9eba1#32) ∧
  (∀ (s : State) (t : BitVec 7), 40 ≤ t.toNat → t.toNat ≤ 59 →
    ∃ u, exec (.roundMaj t) s = .next u ∧
      RoundEffect s u t ((s.B &&& s.C) ||| (s.B &&& s.D) ||| (s.C &&& s.D)) 0x8f1bbcdc#32) ∧
  (∀ (s : State) (t : BitVec 7), 60 ≤ t.toNat → t.toNat ≤ 79 →
    ∃ u, exec (.roundPar2 t) s = .next u ∧ RoundEffect s u t (s.B ^^^ s.C ^^^ s.D) 0xca62c1d6#32) ∧
  (∀ (s : State) (t : BitVec 7), s.phase ≠ .fault → 79 < t.toNat →
    RaisesRoundIndex s (.roundCh t) ∧ RaisesRoundIndex s (.roundPar1 t) ∧ RaisesRoundIndex s (.roundMaj t) ∧
    RaisesRoundIndex s (.roundPar2 t))

/-- R150: `FEED`. -/
def Obligations.FeedAddsIntoTheState : Prop :=
  ∀ s : State, ∃ u, exec .feed s = .next u ∧
    u.H = #v[s.H[0] + s.A, s.H[1] + s.B, s.H[2] + s.C, s.H[3] + s.D, s.H[4] + s.E] ∧
    u.phase = .accum ∧ u.seq = .idle ∧ u.t = 0#7 ∧
    u.A = s.A ∧ u.B = s.B ∧ u.C = s.C ∧ u.D = s.D ∧ u.E = s.E ∧ u.W = s.W ∧ u.M = s.M ∧ u.MV = s.MV ∧
    u.err = s.err ∧ u.faultLog = s.faultLog ∧ NotAnswered s u

/-! ### Word operations -/

/-- R112: `ROTL` moves bit `i` to bit `(i + n) mod 32` for every amount `n`, is undone by `ROTL` of `32 - n`, and does nothing for 0 and 32. -/
def Obligations.RotlPermutesTheBits : Prop :=
  (∀ (n : Nat) (w : Word) (i : Nat), i < 32 → (rotl n w).getLsbD ((i + n) % 32) = w.getLsbD i) ∧
  (∀ (r : Nat) (w : Word), r ≤ 31 → rotl (32 - r) (rotl r w) = w) ∧
  (∀ w : Word, rotl 0 w = w ∧ rotl 32 w = w)

/-- R111: `ADD32` in any order, and reduced after every partial sum or once at the end. -/
def Obligations.Add32IsOrderFree : Prop :=
  (∀ xs : List Word, (add32 xs).toNat = (xs.map BitVec.toNat).sum % 2 ^ 32) ∧
  (∀ xs ys : List Word, xs.Perm ys → add32 xs = add32 ys) ∧
  (∀ xs ys : List Word, add32 (add32 xs :: ys) = add32 (xs ++ ys)) ∧
  (∀ x y : Word, add32 [x, y] = x + y)

/-- R114 to R118: the selector's three functions bit by bit, its bands, and where it is not defined. -/
def Obligations.SelectorByBandAndBit : Prop :=
  (∀ (B C D : Word) (i : Nat), i < 32 →
    (ch B C D).getLsbD i = (if B.getLsbD i then C.getLsbD i else D.getLsbD i) ∧
    (parity B C D).getLsbD i = ((B.getLsbD i).xor ((C.getLsbD i).xor (D.getLsbD i))) ∧
    ((maj B C D).getLsbD i = true ↔
      2 ≤ (B.getLsbD i).toNat + (C.getLsbD i).toNat + (D.getLsbD i).toNat)) ∧
  (∀ (t : Nat) (B C D : Word),
    (t ≤ 19 → selector t B C D = some (ch B C D)) ∧
    (20 ≤ t → t ≤ 39 → selector t B C D = some (parity B C D)) ∧
    (40 ≤ t → t ≤ 59 → selector t B C D = some (maj B C D)) ∧
    (60 ≤ t → t ≤ 79 → selector t B C D = some (parity B C D)) ∧
    (80 ≤ t → selector t B C D = none))

/-- R119: `K(t) = KTAB[t div 20]`, and not defined from 80 on. -/
def Obligations.RoundConstantTable : Prop :=
  ∀ t : Nat, roundK t = [0x5a827999#32, 0x6ed9eba1#32, 0x8f1bbcdc#32, 0xca62c1d6#32][t / 20]?

/-! ### Faults -/

/-- R211, R216: fault entry by the code of its cause, in an engine step and in a transaction. -/
def Obligations.FaultEntryWrites : Prop :=
  (∀ (s : State) (c : FaultCode), s.phase ≠ .fault → FaultEntered s (s.raise c) c ∧ NotAnswered s (s.raise c)) ∧
  (∀ (s : State) (we : Bool) (c : FaultCode), s.phase ≠ .fault →
    FaultEntered s (s.raiseTxn we c) c ∧ Answered s (s.raiseTxn we c) we true 0#32) ∧
  FaultCode.eAddr.code = 1#4 ∧ FaultCode.eAccess.code = 2#4 ∧ FaultCode.eCmd.code = 3#4 ∧ FaultCode.eBusy.code = 4#4 ∧
  FaultCode.ePhase.code = 5#4 ∧ FaultCode.eIncompleteBlock.code = 6#4 ∧ FaultCode.eNotFinal.code = 7#4 ∧
  FaultCode.eRoundIndex.code = 8#4

/-- R83, R212, R213, R214: the illegal transactions, in every phase but `FAULT`, busy or not. -/
def Obligations.IllegalTransactionsFault : Prop :=
  ∀ (s : State) (w : BitVec 40), s.phase ≠ .fault → w.getLsbD 38 = false →
    ((0x02#6 ≤ w.extractLsb' 32 6 ∧ w.extractLsb' 32 6 ≤ 0x0F#6) ∨
        (0x25#6 ≤ w.extractLsb' 32 6 ∧ w.extractLsb' 32 6 ≤ 0x3F#6) →
      ∃ u, runVerdict (w.getLsbD 39) (decodeTW w) s = .next u ∧ FaultEntered s u .eAddr ∧
        Answered s u (w.getLsbD 39) true 0#32 ∧ u.err = 1#4) ∧
    (w.getLsbD 39 = false ∧ (w.extractLsb' 32 6 = 0x00#6 ∨
          0x10#6 ≤ w.extractLsb' 32 6 ∧ w.extractLsb' 32 6 ≤ 0x1F#6) ∨
        w.getLsbD 39 = true ∧ (w.extractLsb' 32 6 = 0x01#6 ∨
          0x20#6 ≤ w.extractLsb' 32 6 ∧ w.extractLsb' 32 6 ≤ 0x24#6) →
      ∃ u, runVerdict (w.getLsbD 39) (decodeTW w) s = .next u ∧ FaultEntered s u .eAccess ∧
        Answered s u (w.getLsbD 39) true 0#32 ∧ u.err = 2#4) ∧
    (w.getLsbD 39 = true ∧ w.extractLsb' 32 6 = 0x00#6 ∧ w.extractLsb' 0 32 ≠ 1#32 ∧ w.extractLsb' 0 32 ≠ 2#32 ∧
        w.extractLsb' 0 32 ≠ 3#32 →
      ∃ u, runVerdict (w.getLsbD 39) (decodeTW w) s = .next u ∧ FaultEntered s u .eCmd ∧
        Answered s u (w.getLsbD 39) true 0#32 ∧ u.err = 3#4)

/-- R215: `E_BUSY` of `NEXT`, `FINAL`, `WRBLK`, and of no other instruction. -/
def Obligations.BusyFault : Prop :=
  ∀ s : State, s.phase ≠ .fault → s.seq ≠ .idle →
    RaisesFault .next s true .eBusy ∧ RaisesFault .final s true .eBusy ∧
    (∀ i d, RaisesFault (.wrblk i d) s true .eBusy) ∧
    (∃ u, exec .init s = .next u ∧ u.faultLog = s.faultLog) ∧
    (∃ u, exec .rdstat s = .next u ∧ u.faultLog = s.faultLog) ∧
    (∀ i : Fin 5, s.phase ≠ .final → RaisesFault (Instr.rddig i) s false .eNotFinal) ∧
    (∀ i : Fin 5, s.phase = .final → ∃ u, exec (Instr.rddig i) s = .next u ∧ u.faultLog = s.faultLog)

/-- R217: `E_PHASE` of an idle engine. -/
def Obligations.PhaseFault : Prop :=
  ∀ s : State, s.seq = .idle →
    (s.phase = .final → RaisesFault .next s true .ePhase ∧ RaisesFault .final s true .ePhase ∧
      ∀ i d, RaisesFault (.wrblk i d) s true .ePhase) ∧
    (s.phase = .empty → RaisesFault .final s true .ePhase)

/-- R224: `E_ROUND_INDEX`, raised by the engine's step: no transaction carries it.  That `UNPACK` and `FEED` with `t != 0` raise
it too is the model's reading of U13 (log entry 9, DEDUCED). -/
def Obligations.RoundIndexFault : Prop :=
  (∀ s : State, s.phase ≠ .fault →
    (s.seq = .expand ∧ (s.t.toNat < 16 ∨ 79 < s.t.toNat)) ∨ (s.seq = .round ∧ 79 < s.t.toNat) ∨
      ((s.seq = .unpack ∨ s.seq = .feed) ∧ s.t ≠ 0#7) →
    ∃ u, engineStep s = .next u ∧ FaultEntered s u .eRoundIndex ∧ NotAnswered s u ∧ u.err = 8#4 ∧
      (s.MV ≠ 0xFFFF#16 → u.statusWord = 0x00000830#32)) ∧
  (∀ (t : Nat) (B C D : Word), 79 < t → selector t B C D = none ∧ roundK t = none)

/-- R170, R221: in phase `FAULT` every transaction but `RDSTAT` and `INIT` is refused without any state change. -/
def Obligations.FaultPhaseRefuses : Prop :=
  ∀ (s : State) (w : BitVec 40), s.phase = .fault → w.getLsbD 38 = false →
    decodeTW w ≠ .instr .init → decodeTW w ≠ .instr .rdstat →
    ∃ u, runVerdict (w.getLsbD 39) (decodeTW w) s = .next u ∧ SameRegs s u ∧ Answered s u (w.getLsbD 39) true 0#32

/-- R30, R221, R222: phase `FAULT` keeps every register, the code of the first fault among them; only `INIT` and reset leave it,
to `EMPTY`. -/
def Obligations.FaultIsSticky : Prop :=
  ∀ s u : State, s.Inv → s.phase = .fault → step s = .next u →
    SameRegs s u ∨
    ((s.headIs .init ∨ s.headIsReset) ∧
      u.phase = .empty ∧ u.err = 0#4 ∧ u.H = iv ∧ u.seq = .idle ∧ u.t = 0#7 ∧ u.MV = 0#16)

/-- R216, R222: the record of fault entries is never cleared, and it grows exactly when a step enters phase `FAULT`.  The record
is the model's own field (log entry 4), and that an engine step at a bad index in phase `FAULT`, which no run reaches, keeps
`err` and the record is the model's choice (log entry 6). -/
def Obligations.FaultRecordIsComplete : Prop :=
  ∀ s u : State, step s = .next u →
    (u.faultLog = s.faultLog ∧ (u.phase = .fault → s.phase = .fault)) ∨
    (∃ c, u.faultLog = s.faultLog ++ [c] ∧ s.phase ≠ .fault ∧ u.phase = .fault ∧ u.err = c.code)

/-! ### Reset and invariants -/

/-- R240, R241: the specified registers after reset: in the reset state, in each instance of a system, and after a reset event in
any state.  (The values of `A..E`, `W`, `M` are not specified, and nothing is said of them.) -/
def Obligations.ResetValues : Prop :=
  ∀ s u : State, u = State.reset ∨ u ∈ System.reset ∨ u = s.resetEvent →
    u.H = #v[0x67452301#32, 0xefcdab89#32, 0x98badcfe#32, 0x10325476#32, 0xc3d2e1f0#32] ∧
    u.phase = .empty ∧ u.seq = .idle ∧ u.t = 0#7 ∧ u.err = 0#4 ∧ u.MV = 0#16 ∧
    u.statusWord = 0x00000000#32 ∧ u.busy = false ∧ u.digestValid = false ∧ u.faultOut = false

/-- R36: the reset state meets the invariant. -/
def Obligations.ResetMeetsInvariant : Prop := State.reset.Inv

/-- R36: every step keeps the invariant. -/
def Obligations.StepKeepsInvariant : Prop :=
  ∀ s u : State, s.Inv → step s = .next u → u.Inv

/-- R27: the only changes of `phase`, and their causes. -/
def Obligations.PhaseTransitions : Prop :=
  (Phase.empty.bits = 0#2 ∧ Phase.accum.bits = 1#2 ∧ Phase.final.bits = 2#2 ∧ Phase.fault.bits = 3#2) ∧
  ∀ s u : State, s.Inv → step s = .next u → u.phase ≠ s.phase →
    (u.phase = .empty ∧ (s.headIs .init ∨ s.headIsReset)) ∨
    (s.phase = .empty ∧ u.phase = .accum ∧ s.seq = .feed) ∨
    (s.phase = .accum ∧ u.phase = .final ∧ s.headIs .final) ∨
    (s.phase ≠ .fault ∧ u.phase = .fault)

/-- R168: the only changes of the program counter `(seq, t)`, and their causes. -/
def Obligations.ProgramCounterGraph : Prop :=
  ∀ s u : State, s.Inv → step s = .next u →
    (u.seq = s.seq ∧ u.t = s.t) ∨
    (s.seq = .idle ∧ u.seq = .expand ∧ u.t = 16#7 ∧ s.headIs .next) ∨
    (s.seq = .expand ∧ 16 ≤ s.t.toNat ∧ s.t.toNat ≤ 78 ∧ u.seq = .expand ∧ u.t = s.t + 1#7) ∨
    (s.seq = .expand ∧ s.t = 79#7 ∧ u.seq = .unpack ∧ u.t = 0#7) ∨
    (s.seq = .unpack ∧ u.seq = .round ∧ u.t = 0#7) ∨
    (s.seq = .round ∧ s.t.toNat ≤ 78 ∧ u.seq = .round ∧ u.t = s.t + 1#7) ∨
    (s.seq = .round ∧ s.t = 79#7 ∧ u.seq = .feed ∧ u.t = 0#7) ∨
    (s.seq = .feed ∧ u.seq = .idle ∧ u.t = 0#7) ∨
    (u.seq = .idle ∧ u.t = 0#7 ∧ (s.headIs .init ∨ s.headIsReset ∨ u.phase = .fault))

/-- R21: `H` is written only by `FEED`, `INIT` and reset, and in phase `FINAL` only by the last two. -/
def Obligations.DigestIsImmutable : Prop :=
  ∀ s u : State, s.Inv → step s = .next u → u.H ≠ s.H →
    (s.seq = .feed ∧ s.phase ≠ .final) ∨ s.headIs .init ∨ s.headIsReset

/-- R56: a read that succeeds changes nothing and answers the same again; writing the same block word again leaves `M` and `MV` as
after the first write. -/
def Obligations.ReadsAndBlockWritesAreIdempotent : Prop :=
  (∀ (s u v : State) (i : Instr), i = .rdstat ∨ (s.phase = .final ∧ ∃ j, i = Instr.rddig j) →
    exec i s = .next u → exec i u = .next v →
    SameRegs s u ∧ SameRegs u v ∧
      ∃ r, u.responses = s.responses ++ [r] ∧ v.responses = u.responses ++ [r] ∧ r.err = false) ∧
  (∀ (s u v : State) (i : BitVec 4) (d : Word), exec (.wrblk i d) s = .next u → exec (.wrblk i d) u = .next v →
    v.M = u.M ∧ v.MV = u.MV)

/-- U11, R36 item 3: a step answers a next state, or is refused on a word that is no transaction; and from a state that meets the
invariant `E_ROUND_INDEX` is never raised. -/
def Obligations.NoStopFromGoodStates : Prop :=
  ∀ s : State,
    ((∃ u, step s = .next u) ∨
      (step s = .refused .notATransaction ∧ ∃ w rest, s.program = .txn w :: rest ∧ w.getLsbD 38 = true)) ∧
    (s.Inv → ∀ u, step s = .next u → u.faultLog = s.faultLog ∨ ∃ c, c ≠ .eRoundIndex ∧ u.faultLog = s.faultLog ++ [c])

/-! ### Runs -/

/-- R160: fairness to the engine.  Within the present turn the engine's pending micro-operation is taken next, unless the engine
became idle before. -/
def Obligations.EngineStepIsEventuallyTaken : Prop :=
  ∀ s : State, s.seq ≠ .idle → (∀ w, HostItem.txn w ∈ s.program → w.getLsbD 38 = false) →
    ∃ n u, n ≤ s.turn ∧ run n s = .next u ∧
      (u.seq = .idle ∨
        (u.seq = s.seq ∧ u.t = s.t ∧
          step u = engineStep (if u.program = [] then u else u.engineTurn)))

/-- R152, R133: a block takes exactly 146 engine steps, and what holds during and after them. -/
def Obligations.BlockTakes146Steps : Prop :=
  ∀ s : State, s.phase ≠ .fault → s.phase ≠ .final → s.seq = .idle → s.MV = 0xFFFF#16 → s.program = [] →
    ∃ u, exec .next s = .next u ∧
      (∀ k, k < 146 → ∃ v, run k u = .next v ∧ v.H = s.H ∧ v.busy = true ∧ v.blkFull = false ∧
        v.phase = s.phase ∧ v.M = s.M) ∧
      (∃ v, run 146 u = .next v ∧ v.H = compress s.H s.M ∧ v.seq = .idle ∧ v.t = 0#7 ∧ v.phase = .accum ∧
        v.MV = 0#16 ∧ v.M = s.M ∧ v.err = s.err ∧ v.faultLog = s.faultLog ∧ NotAnswered u v ∧
        ∀ t (h : t < 80), v.W[t] = scheduleWord s.M t)

/-- R152, R167, R246: `NEXT` then `WAIT`, in every schedule: some number of polls that read `BUSY = 1`, one that reads the block
done, and `H` holds the next chaining value. -/
def Obligations.NextThenWait : Prop :=
  ∀ (s : State) (rest : List HostItem), s.Inv → s.phase ≠ .fault → s.phase ≠ .final → s.seq = .idle →
    s.MV = 0xFFFF#16 → s.program = nextItem :: .wait :: rest →
    ∃ n k u, run n s = .next u ∧ u.program = rest ∧ u.seq = .idle ∧ u.phase = .accum ∧
      u.H = compress s.H s.M ∧ u.MV = 0#16 ∧ u.faultLog = s.faultLog ∧
      u.responses = s.responses ++ [⟨true, false, 0#32⟩] ++
        List.replicate k ⟨false, false, if s.phase = .empty then 0x00000001#32 else 0x00000011#32⟩ ++
        [⟨false, false, 0x00000010#32⟩]

/-- R172: the whole-message theorem, from every state that meets the invariant and in every schedule. -/
def Obligations.WholeMessageDigest : Prop :=
  ∀ (s : State) (X : Vector Word 16) (Xs : List (Vector Word 16)), s.Inv → s.program = driverScript (X :: Xs) →
    ∃ n u rs, run n s = .next u ∧ u.ended ∧ u.phase = .final ∧ u.faultLog = s.faultLog ∧
      u.responses = s.responses ++ rs ++ ((hashBlocks (X :: Xs)).toList.map fun h => ⟨false, false, h⟩) ∧
      (∀ r ∈ rs, r.err = false) ∧ (s.responses = [] → u.endsWell)

/-- R172, R199: for a message within the limit, the driver script over its blocks delivers `SHA1(m)`. -/
def Obligations.EngineComputesTheReferenceDigest : Prop :=
  ∀ m : List Byte, m.length < 2 ^ 61 →
    ∃ Xs d, messageBlocks m = .ok Xs ∧ sha1 m = .ok d ∧
      ∀ s : State, s.Inv → s.program = driverScript Xs →
        ∃ n u rs, run n s = .next u ∧ u.ended ∧ u.phase ≠ .fault ∧
          u.responses = s.responses ++ rs ++ (d.toList.map fun h => ⟨false, false, h⟩) ∧ (∀ r ∈ rs, r.err = false)

/-- R190: for an input the framing accepts, the host's program on any good state ends and the caller gets the reference digest
and its text (with the separator of log entry 20); for one it rejects, the caller gets that error and the host issues nothing,
or `INIT` alone. -/
def Obligations.HostComputesDigest : Prop :=
  ∀ input : HostInput,
    (∀ d, digest input = .ok d → ∀ (begun : Bool) (s : State), s.Inv → s.program = hostProgram begun input →
      ∃ n u, run n s = .next u ∧ u.ended ∧ u.phase = .final ∧ hostResult input u = .ok (some d) ∧
        hostText input u = .ok (some (render d))) ∧
    (∀ e, digest input = .error e →
      hostProgram false input = [] ∧ hostProgram true input = [initItem] ∧ ∀ s, hostResult input s = .error e)

/-! ### Pairs of runs -/

/-- R36 item 4, R22, R26: no step depends on a register nothing has written: two states that differ in such registers only step to
two such states, or stop alike. -/
def Obligations.UnwrittenRegistersNeverMatter : Prop :=
  ∀ s u : State, AgreeOnLive s u →
    (∃ s' u', step s = .next s' ∧ step u = .next u' ∧ AgreeOnLive s' u') ∨
    (∃ r, step s = .refused r ∧ step u = .refused r)

/-- R240, U9: whatever `A..E`, `W` and `M` hold after reset, the host gets the same answers and the same digest registers.  (So the
model's zeros, log entry 5, decide nothing the host can see.) -/
def Obligations.ResetChoiceIsUnobservable : Prop :=
  ∀ (p : List HostItem) (ts : List Nat) (a b c d e : Word) (W : Vector Word 80) (M : Vector Word 16) (n : Nat) (s' : State),
    run n { State.reset with program := p, turns := ts } = .next s' →
    ∃ u', run n { State.reset with program := p, turns := ts, A := a, B := b, C := c, D := d, E := e, W := W, M := M } =
        .next u' ∧
      u'.responses = s'.responses ∧ u'.H = s'.H ∧ u'.statusWord = s'.statusWord ∧ u'.program = s'.program

/-- R33, R168: control flow depends on no data value: two states that differ in data registers only go through the same control
states, answer the same errors, and stop alike. -/
def Obligations.ControlDoesNotDependOnData : Prop :=
  ∀ s u : State, SameControl s u →
    (∃ s' u', step s = .next s' ∧ step u = .next u' ∧ SameControl s' u') ∨
    (∃ r, step s = .refused r ∧ step u = .refused r)

/-- R34: the answer to any transaction depends on `STATUS` and, in phase `FINAL`, on `H`, and on nothing else. -/
def Obligations.HostSeesStatusAndDigestOnly : Prop :=
  ∀ (s u : State) (w : BitVec 40), SameToHost s u → w.getLsbD 38 = false →
    ∃ s' u' r, runVerdict (w.getLsbD 39) (decodeTW w) s = .next s' ∧
      runVerdict (w.getLsbD 39) (decodeTW w) u = .next u' ∧
      s'.responses = s.responses ++ [r] ∧ u'.responses = u.responses ++ [r]

/-- R35, R231: a step of one instance leaves every other instance alone. -/
def Obligations.InstancesAreIndependent : Prop :=
  ∀ (sys sys' : System) (k : Nat), sys.stepAt k = .next sys' →
    sys'.length = sys.length ∧ (∀ j, j ≠ k → sys'[j]? = sys[j]?) ∧
    (∀ s, sys[k]? = some s → ∃ s', step s = .next s' ∧ sys'[k]? = some s')

/-! ### The host-side contract -/

/-- R191, R192: one byte per code unit; a code unit above 255 and an input that is not text are rejected. -/
def Obligations.ByteSourceIsOneBytePerUnit : Prop :=
  (∀ (us : List Nat) (bs : List Byte), byteSource (.text us) = .ok bs ↔ bs.map BitVec.toNat = us) ∧
  (∀ us : List Nat, byteSource (.text us) = .error .byteOutOfRange ↔ ∃ c ∈ us, 255 < c) ∧
  byteSource .nonText = .error .unsupportedInputType

/-- R193, R194, R200: the padded message: its parts, its length, and the length its last eight bytes carry. -/
def Obligations.PaddingShape : Prop :=
  (∀ m : List Byte, m.length < 2 ^ 61 →
    ∃ (n k : Nat) (tail : List Byte), 1 ≤ n ∧ k ≤ 63 ∧ 64 * n = m.length + 9 + k ∧ tail.length = 8 ∧
      pad m = .ok (m ++ [0x80#8] ++ List.replicate k 0x00#8 ++ tail) ∧
      tail.foldl (fun acc b => acc * 256 + b.toNat) 0 = 8 * m.length) ∧
  (∀ m : List Byte, 2 ^ 61 ≤ m.length → pad m = .error .messageTooLong)

/-- R195, R58: the blocks of a padded message, sixteen big-endian words each, in order, none left over; any other length is
`IncompleteBlock`. -/
def Obligations.BlockParserShape : Prop :=
  ∀ p : List Byte,
    (p.length % 64 = 0 → ∃ Xs, parseBlocks p = .ok Xs ∧ 64 * Xs.length = p.length ∧
      ∀ k i (hk : k < Xs.length) (hi : i < 16),
        Xs[k][i].toNat = (p.getD (64 * k + 4 * i) 0).toNat * 2 ^ 24 + (p.getD (64 * k + 4 * i + 1) 0).toNat * 2 ^ 16 +
          (p.getD (64 * k + 4 * i + 2) 0).toNat * 2 ^ 8 + (p.getD (64 * k + 4 * i + 3) 0).toNat) ∧
    (p.length % 64 ≠ 0 → parseBlocks p = .error .incompleteBlock)

/-- R197: character `j` of a word's text is the lowercase hexadecimal digit of nibble `7 - j`, eight characters in all, leading
zeros kept; a digest's text is its five words, `H[0]` first, with any separator between (U5 makes it a parameter).  That
`render` takes single spaces is the model's choice (log entry 20). -/
def Obligations.RenderingIsExact : Prop :=
  (∀ w : Word, (renderWord w).length = 8 ∧
    ∀ j, j < 8 → (renderWord w)[j]? = ("0123456789abcdef".toList)[(w.extractLsb' (4 * (7 - j)) 4).toNat]?) ∧
  renderWord 0x0116fc33#32 = "0116fc33".toList ∧
  (∀ (separator : List Char) (d : Vector Word 5),
    renderWith separator d = List.intercalate separator (d.toList.map renderWord)) ∧
  (∀ d : Vector Word 5, render d = renderWith [' '] d)
end

