-- ==== Sys2Proof/Laws/Encoding.lean ====
section
/-! SUPPORT. The fields of a word built from its fields (30_encoding.md R81, R86), and what each decoder can answer. -/

namespace Sys2Proof

@[simp] theorem twWe_mkTW (we : Bool) (a : BitVec 6) (d : Word) : twWe (mkTW we a d) = we := by
  unfold twWe mkTW
  rw [BitVec.getLsbD_append, BitVec.getLsbD_append, BitVec.getLsbD_append]
  cases we <;> rfl

@[simp] theorem twZ_mkTW (we : Bool) (a : BitVec 6) (d : Word) : twZ (mkTW we a d) = false := by
  unfold twZ mkTW
  rw [BitVec.getLsbD_append, BitVec.getLsbD_append, BitVec.getLsbD_append]
  rfl

@[simp] theorem twAddr_mkTW (we : Bool) (a : BitVec 6) (d : Word) : twAddr (mkTW we a d) = a := by
  unfold twAddr mkTW
  apply BitVec.eq_of_getLsbD_eq
  intro j hj
  rw [BitVec.getLsbD_extractLsb', BitVec.getLsbD_append, BitVec.getLsbD_append]
  simp [show ¬ 32 + j < 32 by omega, hj]

@[simp] theorem twWdata_mkTW (we : Bool) (a : BitVec 6) (d : Word) : twWdata (mkTW we a d) = d := by
  unfold twWdata mkTW
  apply BitVec.eq_of_getLsbD_eq
  intro j hj
  rw [BitVec.getLsbD_extractLsb', BitVec.getLsbD_append]
  simp [hj]

@[simp] theorem swSeq_mkSW (c : BitVec 3) (t : BitVec 7) : swSeq (mkSW c t) = c := by
  unfold swSeq mkSW
  apply BitVec.eq_of_getLsbD_eq
  intro i h
  rw [BitVec.getLsbD_extractLsb', BitVec.getLsbD_append]
  simp [h]

@[simp] theorem swT_mkSW (c : BitVec 3) (t : BitVec 7) : swT (mkSW c t) = t := by
  unfold swT mkSW
  apply BitVec.eq_of_getLsbD_eq
  intro i h
  rw [BitVec.getLsbD_extractLsb', BitVec.getLsbD_append]
  simp [h]

theorem indexIn_iff (lo hi : Nat) (t : BitVec 7) : indexIn lo hi t = true ↔ lo ≤ t.toNat ∧ t.toNat ≤ hi := by
  simp [indexIn]

/-- R28: the five codes are told apart. -/
@[simp] theorem Seq.ofCode_code (q : Seq) : Seq.ofCode q.code = some q := by cases q <;> rfl

/-- R82: the classes of transaction words, with the direction of each. -/
theorem decodeTW_cases (w : BitVec 40) :
    (twZ w = true ∧ decodeTW w = .notTransaction) ∨
    (twZ w = false ∧
      ((twWe w = true ∧ (decodeTW w = .instr .init ∨ decodeTW w = .instr .next ∨ decodeTW w = .instr .final ∨
          ∃ i d, decodeTW w = .instr (.wrblk i d))) ∨
        (twWe w = false ∧ (decodeTW w = .instr .rdstat ∨ ∃ i, decodeTW w = .instr (Instr.rddig i))) ∨
        decodeTW w = .illegalCommand ∨ decodeTW w = .illegalDirection ∨ decodeTW w = .illegalAddress)) := by
  unfold decodeTW
  cases hz : twZ w
  · refine .inr ⟨rfl, ?_⟩
    simp only [decodeRequest, Bool.false_eq_true, if_false]
    cases portReg (twAddr w) <;> cases twWe w <;> simp
    unfold decodeCommand
    split
    · simp
    split
    · simp
    split <;> simp
  · simp

namespace Machine

/-- R86: the sequencer word is the pair `(seq, t)`. -/
theorem State.sw_eq_mkSW (s : State) : s.sw = mkSW s.seq.code s.t := rfl

/-- R86: the sequencer word of a state decodes to what `(seq, t)` selects; no state has a reserved word. -/
theorem decodeSW_sw (s : State) : decodeSW s.sw = .selects (select s.seq s.t) := by
  rw [State.sw_eq_mkSW, decodeSW, swSeq_mkSW, swT_mkSW, Seq.ofCode_code]

end Machine
end Sys2Proof
end

