-- ==== Sys2Proof/Laws/State.lean ====
section
/-! SUPPORT. One lemma per field per named update of the state, true by `rfl`, so that no proof unfolds a record update. -/

namespace Sys2Proof.Machine

/-! ### `State.setW` -/

@[simp] theorem State.setW_H (s : State) (n : Nat) (h : n < 80) (x : Word) : (s.setW n h x).H = s.H := rfl
@[simp] theorem State.setW_A (s : State) (n : Nat) (h : n < 80) (x : Word) : (s.setW n h x).A = s.A := rfl
@[simp] theorem State.setW_B (s : State) (n : Nat) (h : n < 80) (x : Word) : (s.setW n h x).B = s.B := rfl
@[simp] theorem State.setW_C (s : State) (n : Nat) (h : n < 80) (x : Word) : (s.setW n h x).C = s.C := rfl
@[simp] theorem State.setW_D (s : State) (n : Nat) (h : n < 80) (x : Word) : (s.setW n h x).D = s.D := rfl
@[simp] theorem State.setW_E (s : State) (n : Nat) (h : n < 80) (x : Word) : (s.setW n h x).E = s.E := rfl
@[simp] theorem State.setW_W (s : State) (n : Nat) (h : n < 80) (x : Word) : (s.setW n h x).W = s.W.set n x h := rfl
@[simp] theorem State.setW_M (s : State) (n : Nat) (h : n < 80) (x : Word) : (s.setW n h x).M = s.M := rfl
@[simp] theorem State.setW_MV (s : State) (n : Nat) (h : n < 80) (x : Word) : (s.setW n h x).MV = s.MV := rfl
@[simp] theorem State.setW_phase (s : State) (n : Nat) (h : n < 80) (x : Word) : (s.setW n h x).phase = s.phase := rfl
@[simp] theorem State.setW_seq (s : State) (n : Nat) (h : n < 80) (x : Word) : (s.setW n h x).seq = s.seq := rfl
@[simp] theorem State.setW_t (s : State) (n : Nat) (h : n < 80) (x : Word) : (s.setW n h x).t = s.t := rfl
@[simp] theorem State.setW_err (s : State) (n : Nat) (h : n < 80) (x : Word) : (s.setW n h x).err = s.err := rfl
@[simp] theorem State.setW_program (s : State) (n : Nat) (h : n < 80) (x : Word) : (s.setW n h x).program = s.program := rfl
@[simp] theorem State.setW_responses (s : State) (n : Nat) (h : n < 80) (x : Word) :
    (s.setW n h x).responses = s.responses := rfl
@[simp] theorem State.setW_turns (s : State) (n : Nat) (h : n < 80) (x : Word) : (s.setW n h x).turns = s.turns := rfl
@[simp] theorem State.setW_draws (s : State) (n : Nat) (h : n < 80) (x : Word) : (s.setW n h x).draws = s.draws := rfl
@[simp] theorem State.setW_faultLog (s : State) (n : Nat) (h : n < 80) (x : Word) : (s.setW n h x).faultLog = s.faultLog := rfl

/-! ### `State.loadBlock` -/

@[simp] theorem State.loadBlock_H (s : State) : s.loadBlock.H = s.H := rfl
@[simp] theorem State.loadBlock_A (s : State) : s.loadBlock.A = s.A := rfl
@[simp] theorem State.loadBlock_B (s : State) : s.loadBlock.B = s.B := rfl
@[simp] theorem State.loadBlock_C (s : State) : s.loadBlock.C = s.C := rfl
@[simp] theorem State.loadBlock_D (s : State) : s.loadBlock.D = s.D := rfl
@[simp] theorem State.loadBlock_E (s : State) : s.loadBlock.E = s.E := rfl
@[simp] theorem State.loadBlock_W (s : State) :
    s.loadBlock.W = Vector.ofFn fun i => if h : i.val < 16 then s.M[i.val] else s.W[i.val] := rfl
@[simp] theorem State.loadBlock_M (s : State) : s.loadBlock.M = s.M := rfl
@[simp] theorem State.loadBlock_MV (s : State) : s.loadBlock.MV = 0#16 := rfl
@[simp] theorem State.loadBlock_phase (s : State) : s.loadBlock.phase = s.phase := rfl
@[simp] theorem State.loadBlock_seq (s : State) : s.loadBlock.seq = s.seq := rfl
@[simp] theorem State.loadBlock_t (s : State) : s.loadBlock.t = s.t := rfl
@[simp] theorem State.loadBlock_err (s : State) : s.loadBlock.err = s.err := rfl
@[simp] theorem State.loadBlock_program (s : State) : s.loadBlock.program = s.program := rfl
@[simp] theorem State.loadBlock_responses (s : State) : s.loadBlock.responses = s.responses := rfl
@[simp] theorem State.loadBlock_turns (s : State) : s.loadBlock.turns = s.turns := rfl
@[simp] theorem State.loadBlock_draws (s : State) : s.loadBlock.draws = s.draws := rfl
@[simp] theorem State.loadBlock_faultLog (s : State) : s.loadBlock.faultLog = s.faultLog := rfl

/-! ### `State.writeBlock` -/

@[simp] theorem State.writeBlock_H (s : State) (i : BitVec 4) (x : Word) : (s.writeBlock i x).H = s.H := rfl
@[simp] theorem State.writeBlock_A (s : State) (i : BitVec 4) (x : Word) : (s.writeBlock i x).A = s.A := rfl
@[simp] theorem State.writeBlock_B (s : State) (i : BitVec 4) (x : Word) : (s.writeBlock i x).B = s.B := rfl
@[simp] theorem State.writeBlock_C (s : State) (i : BitVec 4) (x : Word) : (s.writeBlock i x).C = s.C := rfl
@[simp] theorem State.writeBlock_D (s : State) (i : BitVec 4) (x : Word) : (s.writeBlock i x).D = s.D := rfl
@[simp] theorem State.writeBlock_E (s : State) (i : BitVec 4) (x : Word) : (s.writeBlock i x).E = s.E := rfl
@[simp] theorem State.writeBlock_W (s : State) (i : BitVec 4) (x : Word) : (s.writeBlock i x).W = s.W := rfl
@[simp] theorem State.writeBlock_M (s : State) (i : BitVec 4) (x : Word) : (s.writeBlock i x).M = s.M.set i.toNat x i.isLt := rfl
@[simp] theorem State.writeBlock_MV (s : State) (i : BitVec 4) (x : Word) :
    (s.writeBlock i x).MV = s.MV ||| (1#16 <<< i.toNat) := rfl
@[simp] theorem State.writeBlock_phase (s : State) (i : BitVec 4) (x : Word) : (s.writeBlock i x).phase = s.phase := rfl
@[simp] theorem State.writeBlock_seq (s : State) (i : BitVec 4) (x : Word) : (s.writeBlock i x).seq = s.seq := rfl
@[simp] theorem State.writeBlock_t (s : State) (i : BitVec 4) (x : Word) : (s.writeBlock i x).t = s.t := rfl
@[simp] theorem State.writeBlock_err (s : State) (i : BitVec 4) (x : Word) : (s.writeBlock i x).err = s.err := rfl
@[simp] theorem State.writeBlock_program (s : State) (i : BitVec 4) (x : Word) : (s.writeBlock i x).program = s.program := rfl
@[simp] theorem State.writeBlock_responses (s : State) (i : BitVec 4) (x : Word) :
    (s.writeBlock i x).responses = s.responses := rfl
@[simp] theorem State.writeBlock_turns (s : State) (i : BitVec 4) (x : Word) : (s.writeBlock i x).turns = s.turns := rfl
@[simp] theorem State.writeBlock_draws (s : State) (i : BitVec 4) (x : Word) : (s.writeBlock i x).draws = s.draws := rfl
@[simp] theorem State.writeBlock_faultLog (s : State) (i : BitVec 4) (x : Word) : (s.writeBlock i x).faultLog = s.faultLog := rfl

/-! ### `State.setVars` -/

@[simp] theorem State.setVars_H (s : State) (a b c d e : Word) : (s.setVars a b c d e).H = s.H := rfl
@[simp] theorem State.setVars_A (s : State) (a b c d e : Word) : (s.setVars a b c d e).A = a := rfl
@[simp] theorem State.setVars_B (s : State) (a b c d e : Word) : (s.setVars a b c d e).B = b := rfl
@[simp] theorem State.setVars_C (s : State) (a b c d e : Word) : (s.setVars a b c d e).C = c := rfl
@[simp] theorem State.setVars_D (s : State) (a b c d e : Word) : (s.setVars a b c d e).D = d := rfl
@[simp] theorem State.setVars_E (s : State) (a b c d e : Word) : (s.setVars a b c d e).E = e := rfl
@[simp] theorem State.setVars_W (s : State) (a b c d e : Word) : (s.setVars a b c d e).W = s.W := rfl
@[simp] theorem State.setVars_M (s : State) (a b c d e : Word) : (s.setVars a b c d e).M = s.M := rfl
@[simp] theorem State.setVars_MV (s : State) (a b c d e : Word) : (s.setVars a b c d e).MV = s.MV := rfl
@[simp] theorem State.setVars_phase (s : State) (a b c d e : Word) : (s.setVars a b c d e).phase = s.phase := rfl
@[simp] theorem State.setVars_seq (s : State) (a b c d e : Word) : (s.setVars a b c d e).seq = s.seq := rfl
@[simp] theorem State.setVars_t (s : State) (a b c d e : Word) : (s.setVars a b c d e).t = s.t := rfl
@[simp] theorem State.setVars_err (s : State) (a b c d e : Word) : (s.setVars a b c d e).err = s.err := rfl
@[simp] theorem State.setVars_program (s : State) (a b c d e : Word) : (s.setVars a b c d e).program = s.program := rfl
@[simp] theorem State.setVars_responses (s : State) (a b c d e : Word) : (s.setVars a b c d e).responses = s.responses := rfl
@[simp] theorem State.setVars_turns (s : State) (a b c d e : Word) : (s.setVars a b c d e).turns = s.turns := rfl
@[simp] theorem State.setVars_draws (s : State) (a b c d e : Word) : (s.setVars a b c d e).draws = s.draws := rfl
@[simp] theorem State.setVars_faultLog (s : State) (a b c d e : Word) : (s.setVars a b c d e).faultLog = s.faultLog := rfl

/-! ### `State.jump` -/

@[simp] theorem State.jump_H (s : State) (q : Seq) (n : BitVec 7) : (s.jump q n).H = s.H := rfl
@[simp] theorem State.jump_A (s : State) (q : Seq) (n : BitVec 7) : (s.jump q n).A = s.A := rfl
@[simp] theorem State.jump_B (s : State) (q : Seq) (n : BitVec 7) : (s.jump q n).B = s.B := rfl
@[simp] theorem State.jump_C (s : State) (q : Seq) (n : BitVec 7) : (s.jump q n).C = s.C := rfl
@[simp] theorem State.jump_D (s : State) (q : Seq) (n : BitVec 7) : (s.jump q n).D = s.D := rfl
@[simp] theorem State.jump_E (s : State) (q : Seq) (n : BitVec 7) : (s.jump q n).E = s.E := rfl
@[simp] theorem State.jump_W (s : State) (q : Seq) (n : BitVec 7) : (s.jump q n).W = s.W := rfl
@[simp] theorem State.jump_M (s : State) (q : Seq) (n : BitVec 7) : (s.jump q n).M = s.M := rfl
@[simp] theorem State.jump_MV (s : State) (q : Seq) (n : BitVec 7) : (s.jump q n).MV = s.MV := rfl
@[simp] theorem State.jump_phase (s : State) (q : Seq) (n : BitVec 7) : (s.jump q n).phase = s.phase := rfl
@[simp] theorem State.jump_seq (s : State) (q : Seq) (n : BitVec 7) : (s.jump q n).seq = q := rfl
@[simp] theorem State.jump_t (s : State) (q : Seq) (n : BitVec 7) : (s.jump q n).t = n := rfl
@[simp] theorem State.jump_err (s : State) (q : Seq) (n : BitVec 7) : (s.jump q n).err = s.err := rfl
@[simp] theorem State.jump_program (s : State) (q : Seq) (n : BitVec 7) : (s.jump q n).program = s.program := rfl
@[simp] theorem State.jump_responses (s : State) (q : Seq) (n : BitVec 7) : (s.jump q n).responses = s.responses := rfl
@[simp] theorem State.jump_turns (s : State) (q : Seq) (n : BitVec 7) : (s.jump q n).turns = s.turns := rfl
@[simp] theorem State.jump_draws (s : State) (q : Seq) (n : BitVec 7) : (s.jump q n).draws = s.draws := rfl
@[simp] theorem State.jump_faultLog (s : State) (q : Seq) (n : BitVec 7) : (s.jump q n).faultLog = s.faultLog := rfl

/-! ### `State.setPhase` -/

@[simp] theorem State.setPhase_H (s : State) (p : Phase) : (s.setPhase p).H = s.H := rfl
@[simp] theorem State.setPhase_A (s : State) (p : Phase) : (s.setPhase p).A = s.A := rfl
@[simp] theorem State.setPhase_B (s : State) (p : Phase) : (s.setPhase p).B = s.B := rfl
@[simp] theorem State.setPhase_C (s : State) (p : Phase) : (s.setPhase p).C = s.C := rfl
@[simp] theorem State.setPhase_D (s : State) (p : Phase) : (s.setPhase p).D = s.D := rfl
@[simp] theorem State.setPhase_E (s : State) (p : Phase) : (s.setPhase p).E = s.E := rfl
@[simp] theorem State.setPhase_W (s : State) (p : Phase) : (s.setPhase p).W = s.W := rfl
@[simp] theorem State.setPhase_M (s : State) (p : Phase) : (s.setPhase p).M = s.M := rfl
@[simp] theorem State.setPhase_MV (s : State) (p : Phase) : (s.setPhase p).MV = s.MV := rfl
@[simp] theorem State.setPhase_phase (s : State) (p : Phase) : (s.setPhase p).phase = p := rfl
@[simp] theorem State.setPhase_seq (s : State) (p : Phase) : (s.setPhase p).seq = s.seq := rfl
@[simp] theorem State.setPhase_t (s : State) (p : Phase) : (s.setPhase p).t = s.t := rfl
@[simp] theorem State.setPhase_err (s : State) (p : Phase) : (s.setPhase p).err = s.err := rfl
@[simp] theorem State.setPhase_program (s : State) (p : Phase) : (s.setPhase p).program = s.program := rfl
@[simp] theorem State.setPhase_responses (s : State) (p : Phase) : (s.setPhase p).responses = s.responses := rfl
@[simp] theorem State.setPhase_turns (s : State) (p : Phase) : (s.setPhase p).turns = s.turns := rfl
@[simp] theorem State.setPhase_draws (s : State) (p : Phase) : (s.setPhase p).draws = s.draws := rfl
@[simp] theorem State.setPhase_faultLog (s : State) (p : Phase) : (s.setPhase p).faultLog = s.faultLog := rfl

/-! ### `State.feedForward` -/

@[simp] theorem State.feedForward_H (s : State) :
    s.feedForward.H = #v[add32 [s.H[0], s.A], add32 [s.H[1], s.B],
    add32 [s.H[2], s.C], add32 [s.H[3], s.D], add32 [s.H[4], s.E]] := rfl
@[simp] theorem State.feedForward_A (s : State) : s.feedForward.A = s.A := rfl
@[simp] theorem State.feedForward_B (s : State) : s.feedForward.B = s.B := rfl
@[simp] theorem State.feedForward_C (s : State) : s.feedForward.C = s.C := rfl
@[simp] theorem State.feedForward_D (s : State) : s.feedForward.D = s.D := rfl
@[simp] theorem State.feedForward_E (s : State) : s.feedForward.E = s.E := rfl
@[simp] theorem State.feedForward_W (s : State) : s.feedForward.W = s.W := rfl
@[simp] theorem State.feedForward_M (s : State) : s.feedForward.M = s.M := rfl
@[simp] theorem State.feedForward_MV (s : State) : s.feedForward.MV = s.MV := rfl
@[simp] theorem State.feedForward_phase (s : State) : s.feedForward.phase = s.phase := rfl
@[simp] theorem State.feedForward_seq (s : State) : s.feedForward.seq = s.seq := rfl
@[simp] theorem State.feedForward_t (s : State) : s.feedForward.t = s.t := rfl
@[simp] theorem State.feedForward_err (s : State) : s.feedForward.err = s.err := rfl
@[simp] theorem State.feedForward_program (s : State) : s.feedForward.program = s.program := rfl
@[simp] theorem State.feedForward_responses (s : State) : s.feedForward.responses = s.responses := rfl
@[simp] theorem State.feedForward_turns (s : State) : s.feedForward.turns = s.turns := rfl
@[simp] theorem State.feedForward_draws (s : State) : s.feedForward.draws = s.draws := rfl
@[simp] theorem State.feedForward_faultLog (s : State) : s.feedForward.faultLog = s.faultLog := rfl

/-! ### `State.respond` -/

@[simp] theorem State.respond_H (s : State) (we err : Bool) (x : Word) : (s.respond we err x).H = s.H := rfl
@[simp] theorem State.respond_A (s : State) (we err : Bool) (x : Word) : (s.respond we err x).A = s.A := rfl
@[simp] theorem State.respond_B (s : State) (we err : Bool) (x : Word) : (s.respond we err x).B = s.B := rfl
@[simp] theorem State.respond_C (s : State) (we err : Bool) (x : Word) : (s.respond we err x).C = s.C := rfl
@[simp] theorem State.respond_D (s : State) (we err : Bool) (x : Word) : (s.respond we err x).D = s.D := rfl
@[simp] theorem State.respond_E (s : State) (we err : Bool) (x : Word) : (s.respond we err x).E = s.E := rfl
@[simp] theorem State.respond_W (s : State) (we err : Bool) (x : Word) : (s.respond we err x).W = s.W := rfl
@[simp] theorem State.respond_M (s : State) (we err : Bool) (x : Word) : (s.respond we err x).M = s.M := rfl
@[simp] theorem State.respond_MV (s : State) (we err : Bool) (x : Word) : (s.respond we err x).MV = s.MV := rfl
@[simp] theorem State.respond_phase (s : State) (we err : Bool) (x : Word) : (s.respond we err x).phase = s.phase := rfl
@[simp] theorem State.respond_seq (s : State) (we err : Bool) (x : Word) : (s.respond we err x).seq = s.seq := rfl
@[simp] theorem State.respond_t (s : State) (we err : Bool) (x : Word) : (s.respond we err x).t = s.t := rfl
@[simp] theorem State.respond_err (s : State) (we err : Bool) (x : Word) : (s.respond we err x).err = s.err := rfl
@[simp] theorem State.respond_program (s : State) (we err : Bool) (x : Word) : (s.respond we err x).program = s.program := rfl
@[simp] theorem State.respond_responses (s : State) (we err : Bool) (x : Word) :
    (s.respond we err x).responses = s.responses ++ [⟨we, err, x⟩] := rfl
@[simp] theorem State.respond_turns (s : State) (we err : Bool) (x : Word) : (s.respond we err x).turns = s.turns := rfl
@[simp] theorem State.respond_draws (s : State) (we err : Bool) (x : Word) : (s.respond we err x).draws = s.draws := rfl
@[simp] theorem State.respond_faultLog (s : State) (we err : Bool) (x : Word) : (s.respond we err x).faultLog = s.faultLog := rfl

/-! ### `State.refuse` -/

@[simp] theorem State.refuse_H (s : State) (we : Bool) : (s.refuse we).H = s.H := rfl
@[simp] theorem State.refuse_A (s : State) (we : Bool) : (s.refuse we).A = s.A := rfl
@[simp] theorem State.refuse_B (s : State) (we : Bool) : (s.refuse we).B = s.B := rfl
@[simp] theorem State.refuse_C (s : State) (we : Bool) : (s.refuse we).C = s.C := rfl
@[simp] theorem State.refuse_D (s : State) (we : Bool) : (s.refuse we).D = s.D := rfl
@[simp] theorem State.refuse_E (s : State) (we : Bool) : (s.refuse we).E = s.E := rfl
@[simp] theorem State.refuse_W (s : State) (we : Bool) : (s.refuse we).W = s.W := rfl
@[simp] theorem State.refuse_M (s : State) (we : Bool) : (s.refuse we).M = s.M := rfl
@[simp] theorem State.refuse_MV (s : State) (we : Bool) : (s.refuse we).MV = s.MV := rfl
@[simp] theorem State.refuse_phase (s : State) (we : Bool) : (s.refuse we).phase = s.phase := rfl
@[simp] theorem State.refuse_seq (s : State) (we : Bool) : (s.refuse we).seq = s.seq := rfl
@[simp] theorem State.refuse_t (s : State) (we : Bool) : (s.refuse we).t = s.t := rfl
@[simp] theorem State.refuse_err (s : State) (we : Bool) : (s.refuse we).err = s.err := rfl
@[simp] theorem State.refuse_program (s : State) (we : Bool) : (s.refuse we).program = s.program := rfl
@[simp] theorem State.refuse_responses (s : State) (we : Bool) :
    (s.refuse we).responses = s.responses ++ [⟨we, true, 0#32⟩] := rfl
@[simp] theorem State.refuse_turns (s : State) (we : Bool) : (s.refuse we).turns = s.turns := rfl
@[simp] theorem State.refuse_draws (s : State) (we : Bool) : (s.refuse we).draws = s.draws := rfl
@[simp] theorem State.refuse_faultLog (s : State) (we : Bool) : (s.refuse we).faultLog = s.faultLog := rfl

/-! ### `State.enterFault` -/

@[simp] theorem State.enterFault_H (s : State) (c : FaultCode) : (s.enterFault c).H = s.H := rfl
@[simp] theorem State.enterFault_A (s : State) (c : FaultCode) : (s.enterFault c).A = s.A := rfl
@[simp] theorem State.enterFault_B (s : State) (c : FaultCode) : (s.enterFault c).B = s.B := rfl
@[simp] theorem State.enterFault_C (s : State) (c : FaultCode) : (s.enterFault c).C = s.C := rfl
@[simp] theorem State.enterFault_D (s : State) (c : FaultCode) : (s.enterFault c).D = s.D := rfl
@[simp] theorem State.enterFault_E (s : State) (c : FaultCode) : (s.enterFault c).E = s.E := rfl
@[simp] theorem State.enterFault_W (s : State) (c : FaultCode) : (s.enterFault c).W = s.W := rfl
@[simp] theorem State.enterFault_M (s : State) (c : FaultCode) : (s.enterFault c).M = s.M := rfl
@[simp] theorem State.enterFault_MV (s : State) (c : FaultCode) : (s.enterFault c).MV = s.MV := rfl
@[simp] theorem State.enterFault_phase (s : State) (c : FaultCode) : (s.enterFault c).phase = .fault := rfl
@[simp] theorem State.enterFault_seq (s : State) (c : FaultCode) : (s.enterFault c).seq = .idle := rfl
@[simp] theorem State.enterFault_t (s : State) (c : FaultCode) : (s.enterFault c).t = 0#7 := rfl
@[simp] theorem State.enterFault_err (s : State) (c : FaultCode) : (s.enterFault c).err = c.code := rfl
@[simp] theorem State.enterFault_program (s : State) (c : FaultCode) : (s.enterFault c).program = s.program := rfl
@[simp] theorem State.enterFault_responses (s : State) (c : FaultCode) : (s.enterFault c).responses = s.responses := rfl
@[simp] theorem State.enterFault_turns (s : State) (c : FaultCode) : (s.enterFault c).turns = s.turns := rfl
@[simp] theorem State.enterFault_draws (s : State) (c : FaultCode) : (s.enterFault c).draws = s.draws := rfl
@[simp] theorem State.enterFault_faultLog (s : State) (c : FaultCode) : (s.enterFault c).faultLog = s.faultLog ++ [c] := rfl

/-! ### `State.loadIV` -/

@[simp] theorem State.loadIV_H (s : State) : s.loadIV.H = iv := rfl
@[simp] theorem State.loadIV_A (s : State) : s.loadIV.A = s.A := rfl
@[simp] theorem State.loadIV_B (s : State) : s.loadIV.B = s.B := rfl
@[simp] theorem State.loadIV_C (s : State) : s.loadIV.C = s.C := rfl
@[simp] theorem State.loadIV_D (s : State) : s.loadIV.D = s.D := rfl
@[simp] theorem State.loadIV_E (s : State) : s.loadIV.E = s.E := rfl
@[simp] theorem State.loadIV_W (s : State) : s.loadIV.W = s.W := rfl
@[simp] theorem State.loadIV_M (s : State) : s.loadIV.M = s.M := rfl
@[simp] theorem State.loadIV_MV (s : State) : s.loadIV.MV = 0#16 := rfl
@[simp] theorem State.loadIV_phase (s : State) : s.loadIV.phase = .empty := rfl
@[simp] theorem State.loadIV_seq (s : State) : s.loadIV.seq = .idle := rfl
@[simp] theorem State.loadIV_t (s : State) : s.loadIV.t = 0#7 := rfl
@[simp] theorem State.loadIV_err (s : State) : s.loadIV.err = 0#4 := rfl
@[simp] theorem State.loadIV_program (s : State) : s.loadIV.program = s.program := rfl
@[simp] theorem State.loadIV_responses (s : State) : s.loadIV.responses = s.responses := rfl
@[simp] theorem State.loadIV_turns (s : State) : s.loadIV.turns = s.turns := rfl
@[simp] theorem State.loadIV_draws (s : State) : s.loadIV.draws = s.draws := rfl
@[simp] theorem State.loadIV_faultLog (s : State) : s.loadIV.faultLog = s.faultLog := rfl

/-! ### `State.resetEvent` -/

@[simp] theorem State.resetEvent_H (s : State) : s.resetEvent.H = iv := rfl
@[simp] theorem State.resetEvent_A (s : State) : s.resetEvent.A = Config.resetWord s.draws 0 := rfl
@[simp] theorem State.resetEvent_B (s : State) : s.resetEvent.B = Config.resetWord s.draws 1 := rfl
@[simp] theorem State.resetEvent_C (s : State) : s.resetEvent.C = Config.resetWord s.draws 2 := rfl
@[simp] theorem State.resetEvent_D (s : State) : s.resetEvent.D = Config.resetWord s.draws 3 := rfl
@[simp] theorem State.resetEvent_E (s : State) : s.resetEvent.E = Config.resetWord s.draws 4 := rfl
@[simp] theorem State.resetEvent_W (s : State) :
    s.resetEvent.W = Vector.ofFn fun i => Config.resetWord s.draws (5 + i.val) := rfl
@[simp] theorem State.resetEvent_M (s : State) :
    s.resetEvent.M = Vector.ofFn fun i => Config.resetWord s.draws (85 + i.val) := rfl
@[simp] theorem State.resetEvent_MV (s : State) : s.resetEvent.MV = 0#16 := rfl
@[simp] theorem State.resetEvent_phase (s : State) : s.resetEvent.phase = .empty := rfl
@[simp] theorem State.resetEvent_seq (s : State) : s.resetEvent.seq = .idle := rfl
@[simp] theorem State.resetEvent_t (s : State) : s.resetEvent.t = 0#7 := rfl
@[simp] theorem State.resetEvent_err (s : State) : s.resetEvent.err = 0#4 := rfl
@[simp] theorem State.resetEvent_program (s : State) : s.resetEvent.program = s.program := rfl
@[simp] theorem State.resetEvent_responses (s : State) : s.resetEvent.responses = s.responses := rfl
@[simp] theorem State.resetEvent_turns (s : State) : s.resetEvent.turns = s.turns := rfl
@[simp] theorem State.resetEvent_draws (s : State) : s.resetEvent.draws = s.draws + 1 := rfl
@[simp] theorem State.resetEvent_faultLog (s : State) : s.resetEvent.faultLog = s.faultLog := rfl

/-! ### `State.consume` -/

@[simp] theorem State.consume_H (s : State) : s.consume.H = s.H := rfl
@[simp] theorem State.consume_A (s : State) : s.consume.A = s.A := rfl
@[simp] theorem State.consume_B (s : State) : s.consume.B = s.B := rfl
@[simp] theorem State.consume_C (s : State) : s.consume.C = s.C := rfl
@[simp] theorem State.consume_D (s : State) : s.consume.D = s.D := rfl
@[simp] theorem State.consume_E (s : State) : s.consume.E = s.E := rfl
@[simp] theorem State.consume_W (s : State) : s.consume.W = s.W := rfl
@[simp] theorem State.consume_M (s : State) : s.consume.M = s.M := rfl
@[simp] theorem State.consume_MV (s : State) : s.consume.MV = s.MV := rfl
@[simp] theorem State.consume_phase (s : State) : s.consume.phase = s.phase := rfl
@[simp] theorem State.consume_seq (s : State) : s.consume.seq = s.seq := rfl
@[simp] theorem State.consume_t (s : State) : s.consume.t = s.t := rfl
@[simp] theorem State.consume_err (s : State) : s.consume.err = s.err := rfl
@[simp] theorem State.consume_program (s : State) : s.consume.program = remaining s := rfl
@[simp] theorem State.consume_responses (s : State) : s.consume.responses = s.responses := rfl
@[simp] theorem State.consume_turns (s : State) : s.consume.turns = s.turns := rfl
@[simp] theorem State.consume_draws (s : State) : s.consume.draws = s.draws := rfl
@[simp] theorem State.consume_faultLog (s : State) : s.consume.faultLog = s.faultLog := rfl

/-! ### `State.advance`: the fields it never changes -/

@[simp] theorem State.advance_H (s : State) (n : BitVec 7) (q : Seq) : (s.advance n q).H = s.H := by
  unfold State.advance; split <;> rfl
@[simp] theorem State.advance_A (s : State) (n : BitVec 7) (q : Seq) : (s.advance n q).A = s.A := by
  unfold State.advance; split <;> rfl
@[simp] theorem State.advance_B (s : State) (n : BitVec 7) (q : Seq) : (s.advance n q).B = s.B := by
  unfold State.advance; split <;> rfl
@[simp] theorem State.advance_C (s : State) (n : BitVec 7) (q : Seq) : (s.advance n q).C = s.C := by
  unfold State.advance; split <;> rfl
@[simp] theorem State.advance_D (s : State) (n : BitVec 7) (q : Seq) : (s.advance n q).D = s.D := by
  unfold State.advance; split <;> rfl
@[simp] theorem State.advance_E (s : State) (n : BitVec 7) (q : Seq) : (s.advance n q).E = s.E := by
  unfold State.advance; split <;> rfl
@[simp] theorem State.advance_W (s : State) (n : BitVec 7) (q : Seq) : (s.advance n q).W = s.W := by
  unfold State.advance; split <;> rfl
@[simp] theorem State.advance_M (s : State) (n : BitVec 7) (q : Seq) : (s.advance n q).M = s.M := by
  unfold State.advance; split <;> rfl
@[simp] theorem State.advance_MV (s : State) (n : BitVec 7) (q : Seq) : (s.advance n q).MV = s.MV := by
  unfold State.advance; split <;> rfl
@[simp] theorem State.advance_phase (s : State) (n : BitVec 7) (q : Seq) : (s.advance n q).phase = s.phase := by
  unfold State.advance; split <;> rfl
@[simp] theorem State.advance_err (s : State) (n : BitVec 7) (q : Seq) : (s.advance n q).err = s.err := by
  unfold State.advance; split <;> rfl
@[simp] theorem State.advance_program (s : State) (n : BitVec 7) (q : Seq) : (s.advance n q).program = s.program := by
  unfold State.advance; split <;> rfl
@[simp] theorem State.advance_responses (s : State) (n : BitVec 7) (q : Seq) : (s.advance n q).responses = s.responses := by
  unfold State.advance; split <;> rfl
@[simp] theorem State.advance_turns (s : State) (n : BitVec 7) (q : Seq) : (s.advance n q).turns = s.turns := by
  unfold State.advance; split <;> rfl
@[simp] theorem State.advance_draws (s : State) (n : BitVec 7) (q : Seq) : (s.advance n q).draws = s.draws := by
  unfold State.advance; split <;> rfl
@[simp] theorem State.advance_faultLog (s : State) (n : BitVec 7) (q : Seq) : (s.advance n q).faultLog = s.faultLog := by
  unfold State.advance; split <;> rfl

/-! ### `State.raise`: the fields it never changes -/

@[simp] theorem State.raise_H (s : State) (c : FaultCode) : (s.raise c).H = s.H := by
  unfold State.raise; split <;> rfl
@[simp] theorem State.raise_A (s : State) (c : FaultCode) : (s.raise c).A = s.A := by
  unfold State.raise; split <;> rfl
@[simp] theorem State.raise_B (s : State) (c : FaultCode) : (s.raise c).B = s.B := by
  unfold State.raise; split <;> rfl
@[simp] theorem State.raise_C (s : State) (c : FaultCode) : (s.raise c).C = s.C := by
  unfold State.raise; split <;> rfl
@[simp] theorem State.raise_D (s : State) (c : FaultCode) : (s.raise c).D = s.D := by
  unfold State.raise; split <;> rfl
@[simp] theorem State.raise_E (s : State) (c : FaultCode) : (s.raise c).E = s.E := by
  unfold State.raise; split <;> rfl
@[simp] theorem State.raise_W (s : State) (c : FaultCode) : (s.raise c).W = s.W := by
  unfold State.raise; split <;> rfl
@[simp] theorem State.raise_M (s : State) (c : FaultCode) : (s.raise c).M = s.M := by
  unfold State.raise; split <;> rfl
@[simp] theorem State.raise_MV (s : State) (c : FaultCode) : (s.raise c).MV = s.MV := by
  unfold State.raise; split <;> rfl
@[simp] theorem State.raise_program (s : State) (c : FaultCode) : (s.raise c).program = s.program := by
  unfold State.raise; split <;> rfl
@[simp] theorem State.raise_responses (s : State) (c : FaultCode) : (s.raise c).responses = s.responses := by
  unfold State.raise; split <;> rfl
@[simp] theorem State.raise_turns (s : State) (c : FaultCode) : (s.raise c).turns = s.turns := by
  unfold State.raise; split <;> rfl
@[simp] theorem State.raise_draws (s : State) (c : FaultCode) : (s.raise c).draws = s.draws := by
  unfold State.raise; split <;> rfl

/-! ### `State.hostTurn`: the fields it never changes -/

@[simp] theorem State.hostTurn_H (s : State) : s.hostTurn.H = s.H := by
  unfold State.hostTurn; split <;> rfl
@[simp] theorem State.hostTurn_A (s : State) : s.hostTurn.A = s.A := by
  unfold State.hostTurn; split <;> rfl
@[simp] theorem State.hostTurn_B (s : State) : s.hostTurn.B = s.B := by
  unfold State.hostTurn; split <;> rfl
@[simp] theorem State.hostTurn_C (s : State) : s.hostTurn.C = s.C := by
  unfold State.hostTurn; split <;> rfl
@[simp] theorem State.hostTurn_D (s : State) : s.hostTurn.D = s.D := by
  unfold State.hostTurn; split <;> rfl
@[simp] theorem State.hostTurn_E (s : State) : s.hostTurn.E = s.E := by
  unfold State.hostTurn; split <;> rfl
@[simp] theorem State.hostTurn_W (s : State) : s.hostTurn.W = s.W := by
  unfold State.hostTurn; split <;> rfl
@[simp] theorem State.hostTurn_M (s : State) : s.hostTurn.M = s.M := by
  unfold State.hostTurn; split <;> rfl
@[simp] theorem State.hostTurn_MV (s : State) : s.hostTurn.MV = s.MV := by
  unfold State.hostTurn; split <;> rfl
@[simp] theorem State.hostTurn_phase (s : State) : s.hostTurn.phase = s.phase := by
  unfold State.hostTurn; split <;> rfl
@[simp] theorem State.hostTurn_seq (s : State) : s.hostTurn.seq = s.seq := by
  unfold State.hostTurn; split <;> rfl
@[simp] theorem State.hostTurn_t (s : State) : s.hostTurn.t = s.t := by
  unfold State.hostTurn; split <;> rfl
@[simp] theorem State.hostTurn_err (s : State) : s.hostTurn.err = s.err := by
  unfold State.hostTurn; split <;> rfl
@[simp] theorem State.hostTurn_program (s : State) : s.hostTurn.program = s.program := by
  unfold State.hostTurn; split <;> rfl
@[simp] theorem State.hostTurn_responses (s : State) : s.hostTurn.responses = s.responses := by
  unfold State.hostTurn; split <;> rfl
@[simp] theorem State.hostTurn_faultLog (s : State) : s.hostTurn.faultLog = s.faultLog := by
  unfold State.hostTurn; split <;> rfl

/-! ### `State.engineTurn`: the fields it never changes -/

@[simp] theorem State.engineTurn_H (s : State) : s.engineTurn.H = s.H := by
  unfold State.engineTurn; split <;> rfl
@[simp] theorem State.engineTurn_A (s : State) : s.engineTurn.A = s.A := by
  unfold State.engineTurn; split <;> rfl
@[simp] theorem State.engineTurn_B (s : State) : s.engineTurn.B = s.B := by
  unfold State.engineTurn; split <;> rfl
@[simp] theorem State.engineTurn_C (s : State) : s.engineTurn.C = s.C := by
  unfold State.engineTurn; split <;> rfl
@[simp] theorem State.engineTurn_D (s : State) : s.engineTurn.D = s.D := by
  unfold State.engineTurn; split <;> rfl
@[simp] theorem State.engineTurn_E (s : State) : s.engineTurn.E = s.E := by
  unfold State.engineTurn; split <;> rfl
@[simp] theorem State.engineTurn_W (s : State) : s.engineTurn.W = s.W := by
  unfold State.engineTurn; split <;> rfl
@[simp] theorem State.engineTurn_M (s : State) : s.engineTurn.M = s.M := by
  unfold State.engineTurn; split <;> rfl
@[simp] theorem State.engineTurn_MV (s : State) : s.engineTurn.MV = s.MV := by
  unfold State.engineTurn; split <;> rfl
@[simp] theorem State.engineTurn_phase (s : State) : s.engineTurn.phase = s.phase := by
  unfold State.engineTurn; split <;> rfl
@[simp] theorem State.engineTurn_seq (s : State) : s.engineTurn.seq = s.seq := by
  unfold State.engineTurn; split <;> rfl
@[simp] theorem State.engineTurn_t (s : State) : s.engineTurn.t = s.t := by
  unfold State.engineTurn; split <;> rfl
@[simp] theorem State.engineTurn_err (s : State) : s.engineTurn.err = s.err := by
  unfold State.engineTurn; split <;> rfl
@[simp] theorem State.engineTurn_program (s : State) : s.engineTurn.program = s.program := by
  unfold State.engineTurn; split <;> rfl
@[simp] theorem State.engineTurn_responses (s : State) : s.engineTurn.responses = s.responses := by
  unfold State.engineTurn; split <;> rfl
@[simp] theorem State.engineTurn_faultLog (s : State) : s.engineTurn.faultLog = s.faultLog := by
  unfold State.engineTurn; split <;> rfl

@[simp] theorem State.raise_seq (s : State) (c : FaultCode) : (s.raise c).seq = .idle := by
  unfold State.raise; split <;> rfl
@[simp] theorem State.raise_t (s : State) (c : FaultCode) : (s.raise c).t = 0#7 := by
  unfold State.raise; split <;> rfl
@[simp] theorem State.raise_phase (s : State) (c : FaultCode) : (s.raise c).phase = .fault := by
  unfold State.raise; split <;> simp_all

end Sys2Proof.Machine
end

