-- ==== Sys2Proof/Laws/Ops.lean ====
section
/-! SUPPORT. One lemma per shared operation of Machine/Ops.lean and Machine/Operands.lean: everything it can do. -/

namespace Sys2Proof.Machine

/-! ### Fault entry (60_exceptions.md R216) -/

theorem FaultCode.code_ne_zero (c : FaultCode) : c.code ≠ 0#4 := by cases c <;> decide

theorem FaultCode.code_le_eight (c : FaultCode) : c.code.toNat ≤ 8 := by cases c <;> decide

theorem FaultCode.code_injective (c d : FaultCode) (h : c.code = d.code) : c = d := by
  revert h
  cases c <;> cases d <;> decide

theorem raise_of_phase_ne_fault {s : State} (h : s.phase ≠ .fault) (c : FaultCode) : s.raise c = s.enterFault c :=
  if_neg h

theorem raise_of_phase_fault {s : State} (h : s.phase = .fault) (c : FaultCode) : s.raise c = s.jump .idle 0#7 :=
  if_pos h

theorem raiseTxn_of_phase_ne_fault {s : State} (h : s.phase ≠ .fault) (we : Bool) (c : FaultCode) :
    s.raiseTxn we c = (s.enterFault c).respond we true 0#32 := by
  rw [State.raiseTxn, raise_of_phase_ne_fault h]

theorem faultEntered_enterFault (s : State) (c : FaultCode) : FaultEntered s (s.enterFault c) c := by
  constructor <;> rfl

theorem faultEntered_raiseTxn {s : State} (h : s.phase ≠ .fault) (we : Bool) (c : FaultCode) :
    FaultEntered s (s.raiseTxn we c) c := by
  rw [raiseTxn_of_phase_ne_fault h]
  constructor <;> rfl

theorem answered_raiseTxn (s : State) (we : Bool) (c : FaultCode) : Answered s (s.raiseTxn we c) we true 0#32 := by
  constructor <;> simp [State.raiseTxn]

/-- An instruction that answers with `raiseTxn` raises that fault. -/
theorem raisesFault_of_exec {i : Instr} {s : State} {we : Bool} {c : FaultCode} (h : s.phase ≠ .fault)
    (e : exec i s = .next (s.raiseTxn we c)) : RaisesFault i s we c :=
  ⟨_, e, faultEntered_raiseTxn h we c, answered_raiseTxn s we c⟩

/-! ### Answers (20_memory.md R51, 43_commands.md R170) -/

theorem sameRegs_respond (s : State) (we err : Bool) (d : Word) : SameRegs s (s.respond we err d) := by
  constructor <;> rfl

theorem answered_respond (s : State) (we err : Bool) (d : Word) : Answered s (s.respond we err d) we err d := by
  constructor <;> rfl

theorem exec_rddig (i : Fin 5) (s : State) : exec (Instr.rddig i) s = readDigest i s := by
  match i with
  | 0 => rfl
  | 1 => rfl
  | 2 => rfl
  | 3 => rfl
  | 4 => rfl

/-! ### The counted micro-operations' end (41_schedule.md R132, 42_rounds.md R142) -/

theorem toNat_add_one {t : BitVec 7} (h : t.toNat < 79) : (t + 1).toNat = t.toNat + 1 := by
  rw [BitVec.toNat_add]
  simp
  omega

theorem advance_cases (s : State) (n : BitVec 7) (q : Seq) :
    (n.toNat < 79 ∧ s.advance n q = { s with t := n + 1 }) ∨ (¬ n.toNat < 79 ∧ s.advance n q = s.jump q 0#7) := by
  unfold State.advance
  split
  · exact .inl ⟨‹_›, rfl⟩
  · exact .inr ⟨‹_›, rfl⟩

theorem pcAfter_advance {s m : State} (t : BitVec 7) (q : Seq) (hs : m.seq = s.seq) :
    PcAfter s (m.advance t q) t q := by
  unfold PcAfter State.advance
  constructor <;> intro h <;> simp [h, hs]

end Sys2Proof.Machine
end

