-- ==== Sys2Proof/Laws/PerInstr.lean ====
section
/-! SUPPORT. Statements per instruction: the encoder's word lies on the instruction's row of spec/opcode_table.json. -/

namespace Sys2Proof.Laws.EncodeMatchesTable

/-- The word of `i` has the width of its row, and under the row's `mask` it is the row's `match`. -/
def Statement (i : Instr) : Prop :=
  (encode i).number.1 = (tableRow i).1 ∧ (encode i).number.2 &&& (tableRow i).2.2 = (tableRow i).2.1

/-- A 10-bit word under the mask of `seq`, for every index. -/
theorem sequencer_row : ∀ (c : BitVec 3) (t : BitVec 7), (mkSW c t).toNat &&& 0x380 = c.toNat * 128 := by decide

theorem init : Statement .init := by unfold Statement; decide

theorem next : Statement .next := by unfold Statement; decide

theorem final : Statement .final := by unfold Statement; decide

theorem wrblk (i : BitVec 4) (data : Word) : Statement (.wrblk i data) := by
  refine ⟨rfl, ?_⟩
  have h : mkTW true (1#2 ++ i) data &&& 0xF000000000#40 = 0x9000000000#40 := by
    unfold mkTW
    apply BitVec.eq_of_getLsbD_eq
    intro j hj
    rw [BitVec.getLsbD_and, BitVec.getLsbD_append, BitVec.getLsbD_append, BitVec.getLsbD_append]
    by_cases h32 : j < 36
    · have e : ∀ j < 36, (0xF000000000#40).getLsbD j = false ∧ (0x9000000000#40).getLsbD j = false := by decide
      rw [(e j h32).1, (e j h32).2, Bool.and_false]
    · interval_cases j <;> simp
  exact congrArg BitVec.toNat h

theorem rdstat : Statement .rdstat := by unfold Statement; decide

theorem rddig0 : Statement .rddig0 := by unfold Statement; decide

theorem rddig1 : Statement .rddig1 := by unfold Statement; decide

theorem rddig2 : Statement .rddig2 := by unfold Statement; decide

theorem rddig3 : Statement .rddig3 := by unfold Statement; decide

theorem rddig4 : Statement .rddig4 := by unfold Statement; decide

theorem expand (t : BitVec 7) : Statement (.expand t) := ⟨rfl, sequencer_row 1#3 t⟩

theorem unpack : Statement .unpack := by unfold Statement; decide

theorem roundCh (t : BitVec 7) : Statement (.roundCh t) := ⟨rfl, sequencer_row 3#3 t⟩

theorem roundPar1 (t : BitVec 7) : Statement (.roundPar1 t) := ⟨rfl, sequencer_row 3#3 t⟩

theorem roundMaj (t : BitVec 7) : Statement (.roundMaj t) := ⟨rfl, sequencer_row 3#3 t⟩

theorem roundPar2 (t : BitVec 7) : Statement (.roundPar2 t) := ⟨rfl, sequencer_row 3#3 t⟩

theorem feed : Statement .feed := by unfold Statement; decide

end Sys2Proof.Laws.EncodeMatchesTable
end

