-- ==== Sys2Proof/Laws/Schedule.lean ====
section
/-! SUPPORT. The schedule of a block word by word (41_schedule.md R133), and `Compress` from its last working variables
(42_rounds.md R151), so that no proof runs the 64 or 80 steps. -/

namespace Sys2Proof.Machine

theorem schedulePrefix_length (X : Vector Word 16) (n : Nat) : (schedulePrefix X n).length = 16 + n := by
  induction n with
  | zero => simp [schedulePrefix]
  | succ n ih => simp [schedulePrefix, extendSchedule, ih]; omega

/-- A schedule word, once there, stays. -/
theorem schedulePrefix_getD_add (X : Vector Word 16) (n k t : Nat) (ht : t < 16 + n) :
    (schedulePrefix X (n + k)).getD t 0#32 = (schedulePrefix X n).getD t 0#32 := by
  induction k with
  | zero => rfl
  | succ k ih =>
    rw [← ih, ← Nat.add_assoc]
    simp only [schedulePrefix, extendSchedule]
    rw [List.getD_append]
    rw [schedulePrefix_length]
    omega

theorem scheduleWord_eq_prefix (X : Vector Word 16) (n t : Nat) (hn : n ≤ 64) (ht : t < 16 + n) :
    scheduleWord X t = (schedulePrefix X n).getD t 0#32 := by
  unfold scheduleWord
  rw [show 64 = n + (64 - n) by omega]
  exact schedulePrefix_getD_add X n _ t ht

/-- R133: the first sixteen words are the block. -/
theorem scheduleWord_lt (X : Vector Word 16) (t : Nat) (ht : t < 16) : scheduleWord X t = X[t] := by
  rw [scheduleWord_eq_prefix X 0 t (by omega) (by omega)]
  simp [schedulePrefix, ht]

/-- R133: every further word from the four before it. -/
theorem scheduleWord_ge (X : Vector Word 16) (t : Nat) (h : 16 ≤ t) (ht : t < 80) :
    scheduleWord X t =
      rotl 1 (scheduleWord X (t - 3) ^^^ scheduleWord X (t - 8) ^^^ scheduleWord X (t - 14) ^^^ scheduleWord X (t - 16)) := by
  have hl : (schedulePrefix X (t - 16)).length = t := by rw [schedulePrefix_length]; omega
  rw [scheduleWord_eq_prefix X (t - 16 + 1) t (by omega) (by omega),
    scheduleWord_eq_prefix X (t - 16) (t - 3) (by omega) (by omega),
    scheduleWord_eq_prefix X (t - 16) (t - 8) (by omega) (by omega),
    scheduleWord_eq_prefix X (t - 16) (t - 14) (by omega) (by omega),
    scheduleWord_eq_prefix X (t - 16) (t - 16) (by omega) (by omega)]
  simp only [schedulePrefix, extendSchedule]
  rw [List.getD_append_right _ _ _ _ (by omega), hl]
  simp

/-- R151, without running the rounds. -/
theorem compress_of_vars {S : Vector Word 5} {X : Vector Word 16} {v : Vars} (h : v = varsAfter S X 80) :
    compress S X =
      #v[add32 [S[0], v.a], add32 [S[1], v.b], add32 [S[2], v.c], add32 [S[3], v.d], add32 [S[4], v.e]] := by
  subst h
  rfl

end Sys2Proof.Machine
end

