-- ==== Sys2Proof/Laws/Step.lean ====
section
/-! SUPPORT. Once and for all, what a step can do: the engine's part, a transaction's part, and the step itself
(43_commands.md R160).  A proof about every step does cases on `StepEffect` and unfolds no meaning. -/

namespace Sys2Proof.Machine

/-! ### The engine's part -/

/-- What the engine's step from `s` can lead to. -/
inductive EngineEffect (s : State) : State → Prop where
  | idle (hq : s.seq = .idle) : EngineEffect s s
  | expand (hq : s.seq = .expand) (ht : 16 ≤ s.t.toNat ∧ s.t.toNat ≤ 79) :
      EngineEffect s ((s.setW s.t.toNat (by omega) (s.expanded s.t.toNat ht)).advance s.t .unpack)
  | unpack (hq : s.seq = .unpack) (ht : s.t = 0#7) :
      EngineEffect s ((s.setVars s.H[0] s.H[1] s.H[2] s.H[3] s.H[4]).jump .round 0#7)
  | round (hq : s.seq = .round) (ht : s.t.toNat ≤ 79) (f k : Word) (hf : selector s.t.toNat s.B s.C s.D = some f)
      (hk : roundK s.t.toNat = some k) :
      EngineEffect s
        ((s.setVars (add32 [rotl 5 s.A, f, s.E, k, s.W[s.t.toNat]]) s.A (rotl 30 s.B) s.C s.D).advance s.t .feed)
  | feed (hq : s.seq = .feed) (ht : s.t = 0#7) : EngineEffect s ((s.feedForward.setPhase .accum).jump .idle 0#7)
  | badIndex (hq : (s.seq = .expand ∧ ¬(16 ≤ s.t.toNat ∧ s.t.toNat ≤ 79)) ∨ (s.seq = .round ∧ 79 < s.t.toNat) ∨
        ((s.seq = .unpack ∨ s.seq = .feed) ∧ s.t ≠ 0#7)) :
      EngineEffect s (s.raise .eRoundIndex)

theorem roundWith_next (f : Word → Word → Word → Word) (k : Word) (t : BitVec 7) (s : State) (h : t.toNat ≤ 79) :
    roundWith f k t s =
      .next ((s.setVars (add32 [rotl 5 s.A, f s.B s.C s.D, s.E, k, s.W[t.toNat]]) s.A (rotl 30 s.B) s.C s.D).advance t .feed) :=
  dif_pos h

theorem engineStep_expand {s : State} (hq : s.seq = .expand) : ∃ u, engineStep s = .next u ∧ EngineEffect s u := by
  unfold engineStep
  by_cases h : 16 ≤ s.t.toNat ∧ s.t.toNat ≤ 79
  · exact ⟨_, by simp [hq, select, indexIn, h, runMicro, exec, execExpand], .expand hq h⟩
  · exact ⟨_, by simp [hq, select, indexIn, h, runMicro], .badIndex (.inl ⟨hq, h⟩)⟩

theorem engineStep_round {s : State} (hq : s.seq = .round) : ∃ u, engineStep s = .next u ∧ EngineEffect s u := by
  unfold engineStep
  by_cases h : s.t.toNat ≤ 79
  · have band : s.t.toNat < 20 ∨ (¬s.t.toNat < 20 ∧ s.t.toNat < 40) ∨
        (¬s.t.toNat < 20 ∧ ¬s.t.toNat < 40 ∧ s.t.toNat < 60) ∨
        (¬s.t.toNat < 20 ∧ ¬s.t.toNat < 40 ∧ ¬s.t.toNat < 60 ∧ s.t.toNat < 80) := by omega
    rcases band with b | ⟨b, c⟩ | ⟨b, c, d⟩ | ⟨b, c, d, e⟩
    · refine ⟨_, ?_, .round hq h (ch s.B s.C s.D) kCh (by simp [selector, b]) (by simp [roundK, b])⟩
      simp [hq, select, selectRound, indexIn, Nat.le_of_lt_succ b, runMicro, exec, execRoundCh, roundWith_next _ _ _ _ h]
    · refine ⟨_, ?_, .round hq h (parity s.B s.C s.D) kPar1 (by simp [selector, b, c]) (by simp [roundK, b, c])⟩
      simp [hq, select, selectRound, indexIn, show ¬s.t.toNat ≤ 19 by omega, show 20 ≤ s.t.toNat by omega,
        Nat.le_of_lt_succ c, runMicro, exec, execRoundPar1, roundWith_next _ _ _ _ h]
    · refine ⟨_, ?_, .round hq h (maj s.B s.C s.D) kMaj (by simp [selector, b, c, d]) (by simp [roundK, b, c, d])⟩
      simp [hq, select, selectRound, indexIn, show ¬s.t.toNat ≤ 19 by omega, show ¬s.t.toNat ≤ 39 by omega,
        show 40 ≤ s.t.toNat by omega, Nat.le_of_lt_succ d, runMicro, exec, execRoundMaj, roundWith_next _ _ _ _ h]
    · refine ⟨_, ?_, .round hq h (parity s.B s.C s.D) kPar2 (by simp [selector, b, c, d, e])
        (by simp [roundK, b, c, d, e])⟩
      simp [hq, select, selectRound, indexIn, show ¬s.t.toNat ≤ 19 by omega, show ¬s.t.toNat ≤ 39 by omega,
        show ¬s.t.toNat ≤ 59 by omega, show 60 ≤ s.t.toNat by omega, Nat.le_of_lt_succ e, runMicro, exec, execRoundPar2,
        roundWith_next _ _ _ _ h]
  · refine ⟨_, ?_, .badIndex (.inr (.inl ⟨hq, by omega⟩))⟩
    simp [hq, select, selectRound, indexIn, show ¬s.t.toNat ≤ 19 by omega, show ¬s.t.toNat ≤ 39 by omega,
      show ¬s.t.toNat ≤ 59 by omega, show ¬s.t.toNat ≤ 79 by omega, runMicro]

/-- The engine's step, from any state, answers a next state. -/
theorem engineStep_total (s : State) : ∃ u, engineStep s = .next u ∧ EngineEffect s u := by
  cases hq : s.seq with
  | idle => exact ⟨s, by rw [engineStep, hq]; rfl, .idle hq⟩
  | expand => exact engineStep_expand hq
  | round => exact engineStep_round hq
  | unpack =>
    by_cases h : s.t = 0#7
    · exact ⟨_, by simp [engineStep, hq, select, h, runMicro, exec, execUnpack], .unpack hq h⟩
    · exact ⟨_, by simp [engineStep, hq, select, h, runMicro], .badIndex (.inr (.inr ⟨.inl hq, h⟩))⟩
  | feed =>
    by_cases h : s.t = 0#7
    · exact ⟨_, by simp [engineStep, hq, select, h, runMicro, exec, execFeed], .feed hq h⟩
    · exact ⟨_, by simp [engineStep, hq, select, h, runMicro], .badIndex (.inr (.inr ⟨.inr hq, h⟩))⟩

/-- A legal program counter has no bad index. -/
theorem not_badIndex_of_legalPc {s : State} (h : s.legalPc = true) :
    ¬((s.seq = .expand ∧ ¬(16 ≤ s.t.toNat ∧ s.t.toNat ≤ 79)) ∨ (s.seq = .round ∧ 79 < s.t.toNat) ∨
      ((s.seq = .unpack ∨ s.seq = .feed) ∧ s.t ≠ 0#7)) := by
  rintro (⟨q, g⟩ | ⟨q, g⟩ | ⟨q | q, g⟩) <;> simp [State.legalPc, q, indexIn] at h
  · exact g h
  · omega
  · exact g h
  · exact g h

/-! ### A transaction's part -/

/-- What the transaction `w` from `s` can lead to. -/
inductive TxnEffect (s : State) (w : BitVec 40) : State → Prop where
  | init (hd : decodeTW w = .instr .init) : TxnEffect s w (s.loadIV.respond true false 0#32)
  | next (hd : decodeTW w = .instr .next) (hp : s.phase ≠ .fault) (hq : s.seq = .idle) (hf : s.phase ≠ .final)
      (hm : s.MV = 0xFFFF#16) : TxnEffect s w ((s.loadBlock.jump .expand 16#7).respond true false 0#32)
  | final (hd : decodeTW w = .instr .final) (hq : s.seq = .idle) (hp : s.phase = .accum) :
      TxnEffect s w ((s.setPhase .final).respond true false 0#32)
  | wrblk (i : BitVec 4) (d : Word) (hd : decodeTW w = .instr (.wrblk i d)) (hp : s.phase ≠ .fault) (hq : s.seq = .idle)
      (hf : s.phase ≠ .final) : TxnEffect s w ((s.writeBlock i d).respond true false 0#32)
  | rdstat (hd : decodeTW w = .instr .rdstat) : TxnEffect s w (s.respond false false s.statusWord)
  | rddig (i : Fin 5) (hd : decodeTW w = .instr (Instr.rddig i)) (hp : s.phase = .final) :
      TxnEffect s w (s.respond false false s.H[i])
  | refused (hp : s.phase = .fault) : TxnEffect s w (s.refuse (twWe w))
  | faulted (c : FaultCode) (hc : c ≠ .eRoundIndex) (hp : s.phase ≠ .fault) :
      TxnEffect s w ((s.enterFault c).respond (twWe w) true 0#32)

theorem txnEffect_raiseTxn {s : State} {w : BitVec 40} {we : Bool} {c : FaultCode} (hw : twWe w = we)
    (hc : c ≠ .eRoundIndex) (h : s.phase ≠ .fault) : TxnEffect s w (s.raiseTxn we c) := by
  subst hw
  rw [raiseTxn_of_phase_ne_fault h]
  exact .faulted c hc h

theorem txnEffect_refuse {s : State} {w : BitVec 40} {we : Bool} (hw : twWe w = we) (h : s.phase = .fault) :
    TxnEffect s w (s.refuse we) := by
  subst hw
  exact .refused h

/-- A transaction, in any state. -/
theorem txn_total (s : State) (w : BitVec 40) :
    (∃ u, runVerdict (twWe w) (decodeTW w) s = .next u ∧ TxnEffect s w u) ∨
    (runVerdict (twWe w) (decodeTW w) s = .refused .notATransaction ∧ twZ w = true) := by
  rcases decodeTW_cases w with ⟨hz, e⟩ | ⟨hz, ⟨hw, e | e | e | ⟨i, d, e⟩⟩ | ⟨hw, e | ⟨i, e⟩⟩ | e | e | e⟩
  · rw [e]
    exact .inr ⟨rfl, hz⟩
  all_goals left; rw [e]
  · exact ⟨_, rfl, .init e⟩
  · simp only [runVerdict, exec, execNext]
    split
    · exact ⟨_, rfl, txnEffect_refuse hw ‹_›⟩
    split
    · exact ⟨_, rfl, txnEffect_raiseTxn hw (by decide) ‹_›⟩
    split
    · exact ⟨_, rfl, txnEffect_raiseTxn hw (by decide) ‹_›⟩
    split
    · exact ⟨_, rfl, txnEffect_raiseTxn hw (by decide) ‹_›⟩
    · exact ⟨_, rfl, .next e ‹_› (by simp_all) ‹_› (by simp_all)⟩
  · simp only [runVerdict, exec, execFinal]
    split
    · exact ⟨_, rfl, txnEffect_refuse hw ‹_›⟩
    split
    · exact ⟨_, rfl, txnEffect_raiseTxn hw (by decide) ‹_›⟩
    split
    · exact ⟨_, rfl, txnEffect_raiseTxn hw (by decide) ‹_›⟩
    · exact ⟨_, rfl, .final e (by simp_all) (by simp_all)⟩
  · simp only [runVerdict, exec, execWrblk]
    split
    · exact ⟨_, rfl, txnEffect_refuse hw ‹_›⟩
    split
    · exact ⟨_, rfl, txnEffect_raiseTxn hw (by decide) ‹_›⟩
    split
    · exact ⟨_, rfl, txnEffect_raiseTxn hw (by decide) ‹_›⟩
    · exact ⟨_, rfl, .wrblk _ _ e ‹_› (by simp_all) (by simp_all)⟩
  · exact ⟨_, rfl, .rdstat e⟩
  · simp only [runVerdict, exec_rddig, readDigest]
    split
    · exact ⟨_, rfl, txnEffect_refuse hw ‹_›⟩
    split
    · exact ⟨_, rfl, txnEffect_raiseTxn hw (by decide) ‹_›⟩
    · exact ⟨_, rfl, .rddig _ e (by simp_all)⟩
  all_goals
    simp only [runVerdict, illegalTxn]
    split
    · exact ⟨_, rfl, .refused ‹_›⟩
    · exact ⟨_, rfl, txnEffect_raiseTxn rfl (by decide) ‹_›⟩

/-! ### The step -/

/-- Registers, fault record and answers agree; only the program and the schedule may differ. -/
structure SameButSchedule (s m : State) : Prop extends SameRegs s m where
  responses : m.responses = s.responses

theorem SameButSchedule.refl (s : State) : SameButSchedule s s := by
  constructor <;> first | rfl | (constructor <;> rfl)

theorem SameButSchedule.trans {a b c : State} (h : SameButSchedule a b) (g : SameButSchedule b c) : SameButSchedule a c := by
  obtain ⟨⟨⟩, _⟩ := h
  obtain ⟨⟨⟩, _⟩ := g
  constructor <;> first | (simp only [*]) | (constructor <;> simp only [*])

theorem sameButSchedule_consume (s : State) : SameButSchedule s s.consume := by
  constructor <;> first | rfl | (constructor <;> rfl)

theorem sameButSchedule_hostTurn (s : State) : SameButSchedule s s.hostTurn := by
  constructor <;> first | simp | (constructor <;> simp)

theorem sameButSchedule_engineTurn (s : State) : SameButSchedule s s.engineTurn := by
  constructor <;> first | simp | (constructor <;> simp)

theorem legalPc_of_sameButSchedule {s m : State} (h : SameButSchedule s m) : m.legalPc = s.legalPc := by
  simp only [State.legalPc, h.seq, h.t]

/-- What one step from `s` can lead to; `m` is `s` with the schedule and the program's head taken care of. -/
inductive StepEffect (s : State) : State → Prop where
  | engine (m u : State) (hm : SameButSchedule s m) (hp : m.program = s.program) (he : EngineEffect m u) : StepEffect s u
  | txn (m u : State) (w : BitVec 40) (rest : List HostItem) (hm : SameButSchedule s m) (hs : s.program = .txn w :: rest)
      (hp : m.program = rest) (he : TxnEffect m w u) : StepEffect s u
  | wait (m : State) (rest : List HostItem) (hm : SameButSchedule s m) (hs : s.program = .wait :: rest)
      (hp : m.program = if s.busy then .wait :: rest else rest) : StepEffect s (m.respond false false m.statusWord)
  | reset (m : State) (rest : List HostItem) (hm : SameButSchedule s m) (hs : s.program = .reset :: rest)
      (hp : m.program = rest) : StepEffect s m.resetEvent

/-- The host's step, over a state `m` that is `s` but for the schedule. -/
theorem hostStep_total {s m : State} (hm : SameButSchedule s m) (hp : m.program = s.program) (hne : s.program ≠ []) :
    (∃ u, hostStep m = .next u ∧ StepEffect s u) ∨
    (hostStep m = .refused .notATransaction ∧ ∃ w rest, s.program = .txn w :: rest ∧ w.getLsbD 38 = true) := by
  have hc : SameButSchedule s m.consume := hm.trans (sameButSchedule_consume m)
  have hpc : m.consume.program = remaining m := rfl
  unfold hostStep
  rcases hpr : m.program with _ | ⟨it, rest⟩
  · exact absurd (hp ▸ hpr) hne
  cases it with
  | txn w =>
    simp only
    rcases txn_total m.consume w with ⟨u, e, ef⟩ | ⟨e, z⟩
    · exact .inl ⟨u, e, .txn _ _ w rest hc (hp ▸ hpr) (by rw [hpc, remaining, hpr]) ef⟩
    · exact .inr ⟨e, w, rest, hp ▸ hpr, z⟩
  | wait =>
    refine .inl ⟨_, rfl, .wait _ rest hc (hp ▸ hpr) ?_⟩
    rw [hpc, remaining, hpr]
    unfold State.busy
    rw [hm.seq]
  | reset => exact .inl ⟨_, rfl, .reset _ rest hc (hp ▸ hpr) (by rw [hpc, remaining, hpr])⟩

theorem step_of_no_program {s : State} (hp : s.program = []) : step s = engineStep s := if_pos hp

theorem step_of_idle {s : State} (hp : s.program ≠ []) (hq : s.seq = .idle) : step s = hostStep s := by
  unfold step agentStep
  rw [if_neg hp, if_pos hq]

theorem step_of_engine_turn {s : State} (hp : s.program ≠ []) (hq : s.seq ≠ .idle) (ht : s.turn = 0) :
    step s = engineStep s.engineTurn := by
  unfold step agentStep
  rw [if_neg hp, if_neg hq, if_pos ht]

theorem step_of_host_turn {s : State} (hp : s.program ≠ []) (hq : s.seq ≠ .idle) (ht : s.turn ≠ 0) :
    step s = hostStep s.hostTurn := by
  unfold step agentStep
  rw [if_neg hp, if_neg hq, if_neg ht]

/-- A step, from any state. -/
theorem step_total (s : State) :
    (∃ u, step s = .next u ∧ StepEffect s u) ∨
    (step s = .refused .notATransaction ∧ ∃ w rest, s.program = .txn w :: rest ∧ w.getLsbD 38 = true) := by
  by_cases hp : s.program = []
  · rw [step_of_no_program hp]
    obtain ⟨u, e, ef⟩ := engineStep_total s
    exact .inl ⟨u, e, .engine s u (.refl s) rfl ef⟩
  by_cases hq : s.seq = .idle
  · rw [step_of_idle hp hq]
    exact hostStep_total (.refl s) rfl hp
  by_cases ht : s.turn = 0
  · rw [step_of_engine_turn hp hq ht]
    obtain ⟨u, e, ef⟩ := engineStep_total s.engineTurn
    exact .inl ⟨u, e, .engine _ u (sameButSchedule_engineTurn s) (by simp) ef⟩
  · rw [step_of_host_turn hp hq ht]
    exact hostStep_total (sameButSchedule_hostTurn s) (by simp) hp

/-- Inversion of a step that answers a next state. -/
theorem stepEffect_of_step {s u : State} (h : step s = .next u) : StepEffect s u := by
  rcases step_total s with ⟨v, e, ef⟩ | ⟨e, _⟩
  · rw [e] at h
    cases h
    exact ef
  · rw [e] at h
    cases h

/-! ### Runs -/

theorem run_succ (n : Nat) (s : State) :
    run (n + 1) s =
      match step s with
      | .next u => run n u
      | .fault r => .fault r
      | .refused r => .refused r := rfl

theorem run_one {s u : State} (h : step s = .next u) : run 1 s = .next u := by
  rw [run_succ, h]
  rfl

theorem run_add (a b : Nat) {s u v : State} (h : run a s = .next u) (g : run b u = .next v) : run (a + b) s = .next v := by
  induction a generalizing s with
  | zero =>
    cases h
    simpa using g
  | succ a ih =>
    rw [show a + 1 + b = (a + b) + 1 by omega, run_succ]
    rw [run_succ] at h
    cases hs : step s with
    | next w => rw [hs] at h; exact ih h
    | fault r => rw [hs] at h; cases h
    | refused r => rw [hs] at h; cases h

end Sys2Proof.Machine
end

