-- ==== Sys2Proof/Laws/WordOps.lean ====
section
/-! SUPPORT. What the word operations of 40_word_ops.md are, in terms the library has lemmas about. -/

namespace Sys2Proof.Machine

/-- R111: the exact sum, reduced once. -/
theorem add32_toNat (xs : List Word) : (add32 xs).toNat = (xs.map BitVec.toNat).sum % 2 ^ 32 := by simp [add32]

/-- The two parts of a rotation have no bit in common, so adding them and joining them by OR is the same (R112). -/
theorem shiftLeft_and_ushiftRight_eq_zero (w : Word) (r : Nat) : (w <<< r) &&& (w >>> (32 - r)) = 0#32 := by
  apply BitVec.eq_of_getLsbD_eq
  intro i hi
  by_cases h : i < r
  · simp [h]
  · simp [show w.getLsbD (32 - r + i) = false from BitVec.getLsbD_of_ge _ _ (by omega)]

/-- R112 in the library's words. -/
theorem rotl_eq_rotateLeft (n : Nat) (w : Word) : rotl n w = w.rotateLeft n := by
  unfold rotl
  rw [← BitVec.rotateLeft_mod_eq_rotateLeft]
  split
  · next h => rw [h]; ext i hi; simp
  · rw [BitVec.rotateLeft_def, Nat.mod_mod,
      ← BitVec.add_eq_or_of_and_eq_zero _ _ (shiftLeft_and_ushiftRight_eq_zero w _)]
    apply BitVec.eq_of_toNat_eq
    rw [BitVec.toNat_add, BitVec.toNat_ofNat, BitVec.toNat_shiftLeft, BitVec.toNat_ushiftRight, Nat.shiftLeft_eq,
      Nat.shiftRight_eq_div_pow]

/-- R114, R119: in the bands, selector and constant are both defined. -/
theorem selector_isSome_iff (t : Nat) (B C D : Word) : (selector t B C D).isSome = true ↔ t < 80 := by
  unfold selector
  split
  · simp; omega
  split
  · simp; omega
  split
  · simp; omega
  split
  · simp; omega
  · simp; omega

end Sys2Proof.Machine
end

