-- ==== Sys2Proof/Tests/Slice0.lean ====
section
/-! SUPPORT. The model's own tests.  Expected values are the spec's: 95_test_vectors.md where a section is named, else the
encoding tables of 30_encoding.md by hand.  At the end, one witness for the hypotheses of each statement that has any. -/

namespace Sys2Proof.Tests

open Sys2Proof.Machine

/-! ### Helpers -/

/-- The result is a next state with the property `p`. -/
def gives (r : Result) (p : State → Bool) : Bool :=
  match r with
  | .next u => p u
  | _ => false

/-- The result is the refusal `r`. -/
def refuses (x : Result) (r : Refusal) : Bool :=
  match x with
  | .refused q => q == r
  | _ => false

/-- The last answer the host got. -/
def lastAnswer (s : State) : Option (Bool × Word) := s.responses.getLast?.map fun r => (r.err, r.rdata)

/-- The block of the message "abc" (section 3). -/
def X1 : Vector Word 16 := #v[0x61626380, 0, 0, 0, 0, 0, 0, 0, 0, 0, 0, 0, 0, 0, 0, 0x18]

/-- The digest S1 (section 1). -/
def S1 : Vector Word 5 := #v[0xda39a3ee, 0x5e6b4b0d, 0x3255bfef, 0x95601890, 0xafd80709]

/-- The digest S2 (section 1). -/
def S2 : Vector Word 5 := #v[0xa9993e36, 0x4706816a, 0xba3e2571, 0x7850c26c, 0x9cd0d89d]

/-- Section 7.2 `FULL`, with the block of "abc". -/
def full : State := { State.reset with MV := 0xFFFF, M := X1 }

/-- Section 7.2 `BUSY1`: ten `EXPAND` steps done. -/
def busy1 : State := { State.reset with seq := .expand, t := 26 }

/-- Section 7.2 `ACC`. -/
def acc : State := { State.reset with phase := .accum, H := S1 }

/-- Section 7.2 `FINAL`. -/
def final : State := { State.reset with phase := .final, H := S1 }

/-- Section 7.2 `FAULT6`. -/
def fault6 : State := { State.reset with phase := .fault, err := 6, faultLog := [.eIncompleteBlock] }

/-- A state in a round: section 3.2's working registers, with one schedule word. -/
def inRound (t : BitVec 7) (a b c d e w : Word) : State :=
  { State.reset with
    seq := .round, t := t, A := a, B := b, C := c, D := d, E := e
    W := Vector.ofFn fun i => if i.val = t.toNat then w else 0 }

/-! ### Well-formedness: each check refuses an ill-formed term -/

theorem test_wf_refuses_expand_below : (Instr.expand 15).wf = false := by decide
theorem test_wf_refuses_expand_above : (Instr.expand 80).wf = false := by decide
theorem test_wf_refuses_round_ch_above : (Instr.roundCh 20).wf = false := by decide
theorem test_wf_refuses_round_par1_below : (Instr.roundPar1 19).wf = false := by decide
theorem test_wf_refuses_round_par1_above : (Instr.roundPar1 40).wf = false := by decide
theorem test_wf_refuses_round_maj_below : (Instr.roundMaj 39).wf = false := by decide
theorem test_wf_refuses_round_maj_above : (Instr.roundMaj 60).wf = false := by decide
theorem test_wf_refuses_round_par2_below : (Instr.roundPar2 59).wf = false := by decide
theorem test_wf_refuses_round_par2_above : (Instr.roundPar2 80).wf = false := by decide
theorem test_wf_accepts_the_bounds :
    (Instr.expand 16).wf ∧ (Instr.expand 79).wf ∧ (Instr.roundCh 0).wf ∧ (Instr.roundCh 19).wf ∧ (Instr.roundPar1 20).wf ∧
    (Instr.roundPar1 39).wf ∧ (Instr.roundMaj 40).wf ∧ (Instr.roundMaj 59).wf ∧ (Instr.roundPar2 60).wf ∧
    (Instr.roundPar2 79).wf := by decide

/-! ### Decoding: a word written out for every constructor -/

-- fields: we, z, addr[5:0], wdata[31:0] (R81); section 7.1
theorem test_decode_init : decodeTW 0b1_0_000000_00000000000000000000000000000001 = .instr .init := by decide
theorem test_decode_next : decodeTW 0b1_0_000000_00000000000000000000000000000010 = .instr .next := by decide
theorem test_decode_final : decodeTW 0b1_0_000000_00000000000000000000000000000011 = .instr .final := by decide
theorem test_decode_wrblk_5 :
    decodeTW 0b1_0_010101_11011110101011011011111011101111 = .instr (.wrblk 5 0xdeadbeef) := by decide
theorem test_decode_wrblk_15 : decodeTW 0x9f00000018 = .instr (.wrblk 15 0x18) := by decide
theorem test_decode_rdstat : decodeTW 0b0_0_000001_00000000000000000000000000000000 = .instr .rdstat := by decide
theorem test_decode_rdstat_ignores_wdata : decodeTW 0x01deadbeef = .instr .rdstat := by decide
theorem test_decode_rddig0 : decodeTW 0b0_0_100000_00000000000000000000000000000000 = .instr .rddig0 := by decide
theorem test_decode_rddig1 : decodeTW 0b0_0_100001_00000000000000000000000000000000 = .instr .rddig1 := by decide
theorem test_decode_rddig2 : decodeTW 0b0_0_100010_00000000000000000000000000000000 = .instr .rddig2 := by decide
theorem test_decode_rddig3 : decodeTW 0b0_0_100011_00000000000000000000000000000000 = .instr .rddig3 := by decide
theorem test_decode_rddig4 : decodeTW 0b0_0_100100_00000000000000000000000000000000 = .instr .rddig4 := by decide
-- section 7.1, the illegal words
theorem test_decode_illegal_command :
    decodeTW 0x8000000000 = .illegalCommand ∧ decodeTW 0x8000000004 = .illegalCommand ∧
    decodeTW 0x80ffffffff = .illegalCommand ∧ decodeTW 0x8000010001 = .illegalCommand := by decide
theorem test_decode_illegal_direction :
    decodeTW 0x0000000000 = .illegalDirection ∧ decodeTW 0x1000000000 = .illegalDirection ∧
    decodeTW 0x1f00000000 = .illegalDirection ∧ decodeTW 0x8100000000 = .illegalDirection ∧
    decodeTW 0xa000000000 = .illegalDirection ∧ decodeTW 0xa400000005 = .illegalDirection := by decide
theorem test_decode_illegal_address :
    decodeTW 0x2500000000 = .illegalAddress ∧ decodeTW 0x0200000000 = .illegalAddress ∧
    decodeTW 0x8f00000000 = .illegalAddress ∧ decodeTW 0xbf00000000 = .illegalAddress ∧
    decodeTW 0x3f00000000 = .illegalAddress := by decide
theorem test_decode_not_a_transaction :
    decodeTW 0x4000000000 = .notTransaction ∧ decodeTW 0xc000000001 = .notTransaction ∧
    decodeTW 0xffffffffff = .notTransaction := by decide
-- fields: seq[2:0], t[6:0] (R86); section 8, program 7
theorem test_decode_expand : decodeSW 0b001_0010000 = .selects (.instr (.expand 16)) ∧ decodeSW 0x0cf = .selects (.instr (.expand 79)) := by decide
theorem test_decode_unpack : decodeSW 0b010_0000000 = .selects (.instr .unpack) := by decide
theorem test_decode_round_ch : decodeSW 0b011_0000000 = .selects (.instr (.roundCh 0)) ∧ decodeSW 0b011_0010011 = .selects (.instr (.roundCh 19)) := by
  decide
theorem test_decode_round_par1 :
    decodeSW 0b011_0010100 = .selects (.instr (.roundPar1 20)) ∧ decodeSW 0b011_0100111 = .selects (.instr (.roundPar1 39)) := by decide
theorem test_decode_round_maj :
    decodeSW 0b011_0101000 = .selects (.instr (.roundMaj 40)) ∧ decodeSW 0b011_0111011 = .selects (.instr (.roundMaj 59)) := by decide
theorem test_decode_round_par2 :
    decodeSW 0b011_0111100 = .selects (.instr (.roundPar2 60)) ∧ decodeSW 0x1cf = .selects (.instr (.roundPar2 79)) := by decide
theorem test_decode_feed : decodeSW 0b100_0000000 = .selects (.instr .feed) := by decide
theorem test_decode_idle : decodeSW 0x000 = .selects .engineIdle := by decide
theorem test_decode_bad_index :
    decodeSW 0b001_0001111 = .selects .roundIndex ∧ decodeSW 0b001_1010000 = .selects .roundIndex ∧
    decodeSW 0b011_1010000 = .selects .roundIndex := by decide
theorem test_decode_reserved_seq : decodeSW 0b101_0000000 = .reservedSeq ∧ decodeSW 0b111_1111111 = .reservedSeq := by decide
-- the host's view of the decoder
theorem test_decode_table_word :
    decodeTableWord 40 0x8000000001 = some .init ∧ decodeTableWord 40 0x9061626380 = some (.wrblk 0 0x61626380) ∧
    decodeTableWord 16 0x090 = some (.expand 16) ∧ decodeTableWord 16 0x200 = some .feed ∧
    decodeTableWord 16 0x080 = none ∧ decodeTableWord 40 0x8000000000 = none := by decide

/-! ### Word operations (section 2) -/

theorem test_add32 :
    add32 [0xffffffff, 1] = 0 ∧ add32 [0x67452301, 0x42541b35] = 0xa9993e36 ∧
    add32 [0xffffffff, 0xffffffff, 0xffffffff, 0xffffffff, 0xffffffff] = 0xfffffffb := by decide
theorem test_rotl :
    rotl 1 0x80000000 = 1 ∧ rotl 5 0x67452301 = 0xe8a4602c ∧ rotl 30 0xefcdab89 = 0x7bf36ae2 ∧ rotl 5 0xf8000000 = 0x1f ∧
    rotl 32 0x12345678 = 0x12345678 := by decide
theorem test_selector_functions :
    ch 0xf0f0f0f0 0xcccccccc 0xaaaaaaaa = 0xcacacaca ∧ parity 0xf0f0f0f0 0xcccccccc 0xaaaaaaaa = 0x96969696 ∧
    maj 0xf0f0f0f0 0xcccccccc 0xaaaaaaaa = 0xe8e8e8e8 := by decide

/-! ### Host commands: one step each (sections 7.3, 7.4, 8) -/

theorem test_init_while_busy :
    gives (exec .init busy1) (fun u => u.H == iv && u.sw == 0 && u.statusWord == 0 && lastAnswer u == some (false, 0)) := by
  decide
theorem test_init_leaves_fault : gives (exec .init fault6) (fun u => u.statusWord == 0 && u.H == iv) := by decide
theorem test_next_accepted :
    gives (exec .next full)
      (fun u => u.sw == 0x090 && u.MV == 0 && u.statusWord == 0x00000001 && u.W[15] == 0x18 && u.M == X1) := by decide
theorem test_next_incomplete_block :
    gives (exec .next acc) (fun u => u.statusWord == 0x00000630 && lastAnswer u == some (true, 0)) := by decide
theorem test_final_accepted : gives (exec .final acc) (fun u => u.statusWord == 0x00000020 && u.H == S1) := by decide
theorem test_final_of_full_is_phase_fault :
    gives (exec .final full) (fun u => u.statusWord == 0x00000532 && lastAnswer u == some (true, 0)) := by decide
theorem test_wrblk_of_full :
    gives (exec (.wrblk 3 5) full) (fun u => u.statusWord == 0x00000002 && u.M[3] == 5 && u.M[0] == 0x61626380) := by decide
theorem test_wrblk_while_busy :
    gives (exec (.wrblk 3 5) busy1) (fun u => u.statusWord == 0x00000430 && u.M == busy1.M) := by decide
theorem test_rdstat_while_busy : gives (exec .rdstat busy1) (fun u => lastAnswer u == some (false, 1) && u.sw == 0x09a) := by decide
theorem test_rdstat_in_fault : gives (exec .rdstat fault6) (fun u => lastAnswer u == some (false, 0x00000630)) := by decide
theorem test_rddig0 : gives (exec .rddig0 final) (fun u => lastAnswer u == some (false, 0xda39a3ee)) := by decide
theorem test_rddig1 : gives (exec .rddig1 final) (fun u => lastAnswer u == some (false, 0x5e6b4b0d)) := by decide
theorem test_rddig2 : gives (exec .rddig2 final) (fun u => lastAnswer u == some (false, 0x3255bfef)) := by decide
theorem test_rddig2_not_final :
    gives (exec .rddig2 full) (fun u => lastAnswer u == some (true, 0) && u.statusWord == 0x00000732) := by decide
theorem test_rddig3 : gives (exec .rddig3 final) (fun u => lastAnswer u == some (false, 0x95601890)) := by decide
theorem test_rddig4 : gives (exec .rddig4 final) (fun u => lastAnswer u == some (false, 0xafd80709)) := by decide

/-! ### Micro-operations: one step each (section 3) -/

theorem test_expand_16 :
    gives (exec (.expand 16) { State.reset with seq := .expand, t := 16, W := State.reset.W.set 0 0x61626380 })
      (fun u => u.W[16] == 0xc2c4c700 && u.sw == 0x091) := by decide
theorem test_expand_79 :
    gives (exec (.expand 79)
        { State.reset with
          seq := .expand, t := 79
          W := (((State.reset.W.set 76 0xe6e60b69).set 71 0x458546f4).set 65 0x000f0000).set 63 0x627b49a1 })
      (fun u => u.W[79] == 0x822e0879 && u.sw == 0x100) := by decide
theorem test_unpack :
    gives (exec .unpack { State.reset with seq := .unpack })
      (fun u => u.A == 0x67452301 && u.B == 0xefcdab89 && u.C == 0x98badcfe && u.D == 0x10325476 && u.E == 0xc3d2e1f0 &&
        u.sw == 0x180) := by decide
theorem test_round_ch_0 :
    gives (exec (.roundCh 0) (inRound 0 0x67452301 0xefcdab89 0x98badcfe 0x10325476 0xc3d2e1f0 0x61626380))
      (fun u => u.A == 0x0116fc33 && u.B == 0x67452301 && u.C == 0x7bf36ae2 && u.D == 0x98badcfe && u.E == 0x10325476 &&
        u.sw == 0x181) := by decide
theorem test_round_ch_19 :
    gives (exec (.roundCh 19) (inRound 19 0xdc64901d 0x82aa6728 0xd3a49608 0xc82f758b 0xc65afb9d 0x85898e01))
      (fun u => u.A == 0xfd9e1d7d && u.C == 0x20aa99ca && u.E == 0xc82f758b && u.sw == 0x194) := by decide
theorem test_round_par1_20 :
    gives (exec (.roundPar1 20) (inRound 20 0xfd9e1d7d 0xdc64901d 0x20aa99ca 0xd3a49608 0xc82f758b 0x00000000))
      (fun u => u.A == 0x1a37b0ca && u.B == 0xfd9e1d7d && u.C == 0x77192407) := by decide
theorem test_round_par1_39 :
    gives (exec (.roundPar1 39) (inRound 39 0x4c986405 0xdc63973f 0x03d447f6 0xf72eec32 0x085e5ab5 0x000018c0))
      (fun u => u.A == 0x32de1cba && u.C == 0xf718e5cf) := by decide
theorem test_round_maj_40 :
    gives (exec (.roundMaj 40) (inRound 40 0x32de1cba 0x4c986405 0xf718e5cf 0x03d447f6 0xf72eec32 0xd2e138c4))
      (fun u => u.A == 0xfc87dedf && u.C == 0x53261901) := by decide
theorem test_round_maj_59 :
    gives (exec (.roundMaj 59) (inRound 59 0x09d785fd 0xd262ff50 0xf211824f 0xd79915ab 0x5edc7ddb 0x44584cb7))
      (fun u => u.A == 0x3f52de5a && u.C == 0x3498bfd4) := by decide
theorem test_round_par2_60 :
    gives (exec (.roundPar2 60) (inRound 60 0x3f52de5a 0x09d785fd 0x3498bfd4 0xf211824f 0xd79915ab 0x7ba06619))
      (fun u => u.A == 0xd756c147 && u.C == 0x4275e17f) := by decide
theorem test_round_par2_79 :
    gives (exec (.roundPar2 79) (inRound 79 0x5738d5e1 0x860d21cc 0x681e6df6 0xd8fdf6ad 0xd7b9da25 0x822e0879))
      (fun u => u.A == 0x42541b35 && u.B == 0x5738d5e1 && u.C == 0x21834873 && u.sw == 0x200) := by decide
theorem test_feed :
    gives (exec .feed
        { State.reset with
          seq := .feed, A := 0x42541b35, B := 0x5738d5e1, C := 0x21834873, D := 0x681e6df6, E := 0xd8fdf6ad })
      (fun u => u.H == S2 && u.statusWord == 0x00000010 && u.sw == 0x000) := by decide

/-! ### The step and the host's placing of a word -/

theorem test_place_host_word : gives (step (State.reset.withFetchWord 40 0x8000000002)) (fun u => u.statusWord == 0x00000630) := by
  decide
theorem test_place_host_word_while_busy :
    gives (step (busy1.withFetchWord 40 0x0100000000)) (fun u => lastAnswer u == some (false, 1) && u.t == 26) := by decide
theorem test_place_engine_word : gives (step (State.reset.withFetchWord 16 0x100)) (fun u => u.sw == 0x180 && u.B == 0xefcdab89) := by
  decide
theorem test_place_engine_word_before_the_host :
    gives (step (({ State.reset with program := [rdstatItem] } : State).withFetchWord 16 0x200))
      (fun u => u.statusWord == 0x00000010 && u.program == [rdstatItem]) := by decide
-- R28, U13: the index of UNPACK is 0
theorem test_unpack_at_index_1_faults : gives (step (State.reset.withFetchWord 16 0x101)) (fun u => u.statusWord == 0x00000830) := by
  decide
theorem test_step_refuses_no_transaction :
    refuses (step (State.reset.withFetchWord 40 0xc000000001)) .notATransaction = true := by decide
-- section 8, program 8a: a read of a write-only register
theorem test_step_illegal_direction :
    gives (step (State.reset.withFetchWord 40 0x1000000000))
      (fun u => u.statusWord == 0x00000230 && lastAnswer u == some (true, 0)) := by decide

/-! ### Host side (sections 6.3, 6.4) -/

theorem test_zero_counts : [0, 3, 55, 56, 64, 119, 120].map (fun L => (blockCount L, zeroCount L)) =
    [(1, 55), (1, 52), (1, 0), (2, 63), (2, 55), (2, 0), (3, 63)] := by decide
theorem test_abc_is_block_X1 :
    (match messageBlocks [0x61, 0x62, 0x63] with
    | .ok Xs => Xs == [X1]
    | .error _ => false) = true := by decide
-- R190: on an error nothing is issued, or INIT; the last five reads are the digest
theorem test_host_program_on_error : hostProgram false .nonText = [] ∧ hostProgram true (.text [256]) = [initItem] := by decide
theorem test_digest_read :
    digestRead [⟨true, true, 9⟩, ⟨false, false, 1⟩, ⟨false, false, 2⟩, ⟨false, false, 3⟩, ⟨false, false, 4⟩,
      ⟨false, false, 5⟩] = some #v[1, 2, 3, 4, 5] ∧
    digestRead [⟨false, false, 1⟩, ⟨false, false, 2⟩, ⟨false, true, 0⟩, ⟨false, false, 4⟩, ⟨false, false, 5⟩] = none := by decide
/-- R197, U5: a rendering without separators, forty digits (the digest of "abc", 95_test_vectors.md section 1). -/
theorem test_render_without_separators :
    String.ofList (renderWith [] #v[0xa9993e36#32, 0x4706816a#32, 0xba3e2571#32, 0x7850c26c#32, 0x9cd0d89d#32])
      = "a9993e364706816aba3e25717850c26c9cd0d89d" := by decide
theorem test_render_word : String.ofList (renderWord 0x0000f600) = "0000f600" := by decide

/-! ### Witnesses: concrete states and operands that meet the hypotheses of the statements -/

/-- The invariant is met in a busy state, too. -/
theorem busy1_inv : busy1.Inv := ⟨by decide, by decide, by decide, by decide, by decide, by decide⟩
theorem full_inv : full.Inv := ⟨by decide, by decide, by decide, by decide, by decide, by decide⟩
theorem fault6_inv : fault6.Inv := ⟨by decide, by decide, by decide, by decide, by decide, by decide⟩

theorem witness_decodeOfEncode : (Instr.wrblk 15 0xffffffff).wf = true ∧ (Instr.expand 79).wf = true := by decide
theorem witness_encodeOfDecode :
    (decode (.tw 0x01deadbeef) = some .rdstat ∧ encode .rdstat = .tw (0x01deadbeef &&& 0xFF00000000)) ∧
    (decode (.sw 0x1cf) = some (.roundPar2 79) ∧ encode (.roundPar2 79) = .sw 0x1cf) := by decide
theorem witness_assembly :
    (Asm.wrblk 15 0xffffffff).items = some [.txn 0x9fffffffff] ∧ (Asm.wrblk 16 0).items = none ∧
    (Asm.wrblk 0 0x100000000).items = none ∧ (Asm.rddig 4).items = some [.txn 0x2400000000] ∧ (Asm.rddig 5).items = none ∧
    (Asm.wr 0x3f 2).items = some [.txn 0xbf00000002] ∧ (Asm.rd 0x3f).items = some [.txn 0x3f00000000] ∧
    (Asm.wr 0x40 0).items = none ∧ (Asm.wr 0 0x100000000).items = none ∧ (Asm.rd 0x40).items = none := by decide
theorem witness_pseudoInstructions :
    assemble [.init, .wait] = some [.txn 0x8000000001, .wait] ∧ assemble [.rddig 4] = some [.txn 0x2400000000] := by decide

/-- A busy engine with a host that still has to poll; the host goes next. -/
def polling : State := { busy1 with program := [.txn 0x0100000000], turns := [1] }
/-- The same with the engine next. -/
def pollingEngineNext : State := { busy1 with program := [.txn 0x0100000000], turns := [0] }

theorem witness_stepRunsHostTransaction :
    polling.program = .txn 0x0100000000 :: [] ∧ polling.seq ≠ .idle ∧ polling.turn ≠ 0 ∧
    decodeTW 0x0100000000 = .instr .rdstat ∧
    ({ full with program := [.txn 0x0100000000] } : State).seq = .idle := by decide
theorem witness_stepRunsWaitAndReset :
    ({ busy1 with program := [.wait], turns := [1] } : State).seq ≠ .idle ∧
    ({ busy1 with program := [.wait], turns := [1] } : State).turn ≠ 0 ∧
    ({ full with program := [.wait] } : State).seq = .idle ∧
    ({ busy1 with program := [.reset], turns := [1] } : State).turn ≠ 0 ∧
    ({ full with program := [.reset] } : State).seq = .idle := by decide
theorem witness_stepRunsMicroOperation :
    decodeSW busy1.sw = .selects (.instr (.expand 26)) ∧ busy1.program = [] ∧
    decodeSW pollingEngineNext.sw = .selects (.instr (.expand 26)) ∧ pollingEngineNext.program ≠ [] ∧ pollingEngineNext.turn = 0 := by
  decide
theorem witness_turnsAreOnlyTheSchedule : polling.turn ≠ 0 := by decide
theorem witness_notATransactionIsRefused :
    refuses (hostStep { full with program := [.txn 0x4000000000] }) .notATransaction = true ∧
    (0x4000000000 : BitVec 40).getLsbD 38 = true := by decide
theorem witness_dispatchFollowsProcedure : (0xbfffffffff : BitVec 40).getLsbD 38 = false := by decide
theorem witness_next :
    (full.phase ≠ .fault ∧ full.seq = .idle ∧ full.phase ≠ .final ∧ full.MV = 0xFFFF) ∧
    (busy1.phase ≠ .fault ∧ busy1.seq ≠ .idle) ∧ (final.phase ≠ .fault ∧ final.seq = .idle ∧ final.phase = .final) ∧
    (acc.phase ≠ .fault ∧ acc.seq = .idle ∧ acc.phase ≠ .final ∧ acc.MV ≠ 0xFFFF) := by decide
theorem witness_final :
    (acc.seq = .idle ∧ acc.phase = .accum) ∧ (busy1.phase ≠ .fault ∧ busy1.seq ≠ .idle) ∧
    (full.phase ≠ .fault ∧ full.seq = .idle ∧ full.phase ≠ .accum) := by decide
theorem witness_wrblk :
    (acc.phase ≠ .fault ∧ acc.seq = .idle ∧ acc.phase ≠ .final) ∧ (busy1.phase ≠ .fault ∧ busy1.seq ≠ .idle) ∧
    (final.phase ≠ .fault ∧ final.seq = .idle ∧ final.phase = .final) ∧
    (∀ j, j < 16 → j ≠ 15 → ({ acc with MV := 0x7FFF } : State).MV.getLsbD j = true) := by decide
theorem witness_init_and_rdstat_in_fault :
    fault6.phase = .fault ∧ Instr.next.agent = .host ∧ Instr.next ≠ .init ∧ Instr.next ≠ .rdstat := by decide
theorem witness_rddig : final.phase = .final ∧ (full.phase = .empty ∧ acc.phase = .accum) := by decide
theorem witness_expand :
    16 ≤ (16 : BitVec 7).toNat ∧ (16 : BitVec 7).toNat ≤ 79 ∧ (79 : BitVec 7).toNat ≤ 79 ∧
    (busy1.phase ≠ .fault ∧ (15 : BitVec 7).toNat < 16 ∧ 79 < (80 : BitVec 7).toNat) ∧
    decodeSW 0x0CF#10 = .selects (.instr (.expand 79#7)) ∧ 0x0CF#10 = 1#3 ++ 79#7 := by decide
theorem witness_rounds :
    (19 : BitVec 7).toNat ≤ 19 ∧ (20 ≤ (20 : BitVec 7).toNat ∧ (39 : BitVec 7).toNat ≤ 39) ∧
    (40 ≤ (40 : BitVec 7).toNat ∧ (59 : BitVec 7).toNat ≤ 59) ∧ (60 ≤ (60 : BitVec 7).toNat ∧ (79 : BitVec 7).toNat ≤ 79) := by
  decide
theorem witness_faultEntry : acc.phase ≠ .fault := by decide
theorem witness_illegalTransactions :
    ((0x2 : BitVec 6) ≤ (0x0200000000 : BitVec 40).extractLsb' 32 6 ∧ (0x0200000000 : BitVec 40).getLsbD 38 = false) ∧
    ((0xbf00000002 : BitVec 40).extractLsb' 32 6 = 0x3F ∧ (0xbf00000002 : BitVec 40).getLsbD 38 = false) ∧
    ((0x1000000000 : BitVec 40).getLsbD 39 = false ∧ (0x1000000000 : BitVec 40).extractLsb' 32 6 = 0x10) ∧
    ((0xa400000005 : BitVec 40).getLsbD 39 = true ∧ (0xa400000005 : BitVec 40).extractLsb' 32 6 = 0x24) ∧
    ((0x8000000004 : BitVec 40).getLsbD 39 = true ∧ (0x8000000004 : BitVec 40).extractLsb' 32 6 = 0 ∧
      (0x8000000004 : BitVec 40).extractLsb' 0 32 = 4) := by decide
theorem witness_busyFault : busy1.phase ≠ .fault ∧ busy1.seq ≠ .idle ∧ busy1.phase ≠ .final := by decide
theorem witness_phaseFault : (final.seq = .idle ∧ final.phase = .final) ∧ (full.seq = .idle ∧ full.phase = .empty) := by decide
theorem witness_roundIndexFault :
    ({ busy1 with t := 15 } : State).t.toNat < 16 ∧ 79 < ({ busy1 with t := 80 } : State).t.toNat ∧ busy1.phase ≠ .fault ∧
    ({ busy1 with seq := .round, t := 80 } : State).seq = .round ∧
    ({ busy1 with seq := .unpack, t := 1 } : State).t ≠ 0 ∧ ({ busy1 with seq := .feed, t := 127 } : State).seq = .feed ∧
    busy1.MV ≠ 0xFFFF := by decide
theorem witness_faultPhaseRefuses :
    fault6.phase = .fault ∧ decodeTW 0x8000000002 ≠ .instr .init ∧ decodeTW 0x8000000002 ≠ .instr .rdstat ∧
    (0x8000000002 : BitVec 40).getLsbD 38 = false := by decide

/-- A step of a host program from phase `FAULT`, from a good state. -/
theorem witness_faultIsSticky :
    ({ fault6 with program := [.txn 0x8000000001] } : State).Inv ∧
    gives (step { fault6 with program := [.txn 0x8000000001] }) (fun u => u.phase == .empty) ∧
    gives (step { fault6 with program := [.txn 0x8000000002] }) (fun u => u.phase == .fault) :=
  ⟨⟨by decide, by decide, by decide, by decide, by decide, by decide⟩, by decide, by decide⟩
theorem witness_faultRecordIsComplete :
    gives (step { acc with program := [nextItem] }) (fun u => u.faultLog == [.eIncompleteBlock]) ∧
    gives (step { full with program := [nextItem] }) (fun u => u.faultLog == []) := by decide
theorem witness_steps_from_good_states : busy1.Inv ∧ gives (step busy1) (fun u => u.t == 27) := ⟨busy1_inv, by decide⟩

/-- A good state whose next step is `FEED`: phase, program counter and `H` change. -/
theorem witness_feed_changes :
    ({ State.reset with seq := .feed, A := 1 } : State).Inv ∧
    gives (step { State.reset with seq := .feed, A := 1 }) (fun u => u.phase == .accum && u.sw == 0 && u.H != iv) :=
  ⟨⟨by decide, by decide, by decide, by decide, by decide, by decide⟩, by decide⟩
theorem witness_idempotent :
    gives (exec .rdstat busy1) (fun u => gives (exec .rdstat u) fun _ => true) ∧
    gives (exec (Instr.rddig 4) final) (fun u => gives (exec (Instr.rddig 4) u) fun _ => true) ∧
    gives (exec (.wrblk 3 5) acc) (fun u => gives (exec (.wrblk 3 5) u) fun _ => true) := by decide
theorem witness_engineStepIsEventuallyTaken :
    polling.seq ≠ .idle ∧ (∀ w, HostItem.txn w ∈ polling.program → w.getLsbD 38 = false) :=
  ⟨by decide, by intro w h; simp [polling] at h; subst h; decide⟩
theorem witness_block :
    full.phase ≠ .fault ∧ full.phase ≠ .final ∧ full.seq = .idle ∧ full.MV = 0xFFFF ∧ full.program = [] := by decide
theorem witness_nextThenWait :
    ({ full with program := [nextItem, .wait] } : State).Inv ∧
    ({ full with program := [nextItem, .wait] } : State).program = nextItem :: .wait :: [] :=
  ⟨⟨by decide, by decide, by decide, by decide, by decide, by decide⟩, rfl⟩
theorem witness_wholeMessage :
    ({ busy1 with program := driverScript [X1] } : State).Inv ∧
    ({ busy1 with program := driverScript [X1] } : State).program = driverScript [X1] :=
  ⟨⟨by decide, by decide, by decide, by decide, by decide, by decide⟩, rfl⟩
theorem witness_engineComputesTheReferenceDigest : ([0x61, 0x62, 0x63] : List Byte).length < 2 ^ 61 := by decide
theorem witness_hostComputesDigest :
    (∃ d, digest (.text [0x61, 0x62, 0x63]) = .ok d) ∧ digest .nonText = .error .unsupportedInputType ∧
    digest (.text [0x61, 256]) = .error .byteOutOfRange ∧
    ({ busy1 with program := hostProgram true .nonText } : State).program = [initItem] := ⟨⟨_, rfl⟩, rfl, rfl, rfl⟩
theorem witness_resetValues : System.resetOf 0 ∈ System.reset :=
  List.mem_map.2 ⟨0, List.mem_range.2 (Nat.succ_pos _), rfl⟩
theorem witness_agreeOnLive : AgreeOnLive State.reset { State.reset with A := 1, M := X1 } :=
  ⟨rfl, rfl, rfl, rfl, rfl, rfl, rfl, rfl, rfl, rfl, rfl, by decide, fun _ _ h => h.elim, by decide⟩
theorem witness_resetChoice :
    gives (run 1 { State.reset with program := [rdstatItem], turns := [] }) (fun u => lastAnswer u == some (false, 0)) := by decide
theorem witness_sameControl : SameControl full { full with H := S1, M := State.reset.M } :=
  ⟨rfl, rfl, rfl, rfl, rfl, rfl, rfl, rfl, rfl, rfl⟩
theorem witness_sameToHost : SameToHost busy1 { busy1 with t := 27, H := S1 } := ⟨by decide, by decide⟩
theorem witness_instances :
    (match System.stepAt [full, busy1] 1 with
    | .next sys => sys.length == 2 && sys[0]? == some full
    | _ => false) = true := by decide
theorem witness_roundConstant_and_selector : selector 79 0xf0f0f0f0 0xcccccccc 0xaaaaaaaa = some 0x96969696 ∧
    selector 80 0xf0f0f0f0 0xcccccccc 0xaaaaaaaa = none ∧ roundK 79 = some 0xca62c1d6 ∧ roundK 80 = none := by decide
theorem witness_parser :
    (match parseBlocks [0x61] with
    | .error .incompleteBlock => true
    | _ => false) = true ∧ ([0x61] : List Byte).length % 64 ≠ 0 ∧ (List.replicate 64 (0 : Byte)).length % 64 = 0 := by decide
theorem witness_padding :
    ([] : List Byte).length < 2 ^ 61 ∧ 2 ^ 61 ≤ (List.replicate (2 ^ 61) (0 : Byte)).length := by
  rw [List.length_replicate]
  decide
theorem witness_rotl_and_add32 : (31 < 32 ∧ 0 ≤ 31 ∧ 31 ≤ 31) ∧ ([1, 2] : List Word).Perm [2, 1] := by decide

end Sys2Proof.Tests
end

section
namespace Sys2Proof.Machine

/-! ### The invariants of R36 -/

/-- The invariants speak of registers only. -/
theorem State.Inv.of_sameRegs {s m : State} (h : s.Inv) (r : SameRegs s m) : m.Inv where
  finalIdle := by rw [r.phase, r.seq]; exact h.finalIdle
  faultIdle := by rw [r.phase, r.seq]; exact h.faultIdle
  errIff := by rw [r.err, r.phase]; exact h.errIff
  errCode := by rw [r.err]; exact h.errCode
  pc := by
    have hpc := h.pc
    unfold State.legalPc at hpc ⊢
    rwa [r.seq, r.t]
  emptyIV := by rw [r.phase, r.H]; exact h.emptyIV

/-- The registers `INIT` and reset write are enough for the invariants (R161, R240). -/
theorem State.inv_of_empty {m : State} (hp : m.phase = .empty) (hq : m.seq = .idle) (ht : m.t = 0#7) (he : m.err = 0#4)
    (hH : m.H = iv) : m.Inv where
  finalIdle _ := hq
  faultIdle _ := hq
  errIff := by simp [hp, he]
  errCode := by simp [he]
  pc := by simp [State.legalPc, hq, ht]
  emptyIV _ := hH

/-- In phases `EMPTY` and `ACCUM` any legal program counter will do, as long as `phase`, `err` and `H` stay. -/
theorem State.Inv.of_legalPc {s m : State} (h : s.Inv) (hf : s.phase ≠ .final) (hx : s.phase ≠ .fault)
    (phase : m.phase = s.phase) (err : m.err = s.err) (H : m.H = s.H) (pc : m.legalPc = true) : m.Inv where
  finalIdle e := absurd (phase ▸ e) hf
  faultIdle e := absurd (phase ▸ e) hx
  errIff := by rw [err, phase]; exact h.errIff
  errCode := by rw [err]; exact h.errCode
  pc := pc
  emptyIV := by rw [phase, H]; exact h.emptyIV

/-- An idle engine in phase `ACCUM` or `FINAL` with no error code is a good state, whatever `H` is. -/
theorem State.inv_of_idle {m : State} (hp : m.phase = .accum ∨ m.phase = .final) (hq : m.seq = .idle) (ht : m.t = 0#7)
    (he : m.err = 0#4) : m.Inv where
  finalIdle _ := hq
  faultIdle _ := hq
  errIff := by rcases hp with hp | hp <;> simp [hp, he]
  errCode := by simp [he]
  pc := by simp [State.legalPc, hq, ht]
  emptyIV e := by rcases hp with hp | hp <;> simp [hp] at e

theorem State.inv_enterFault (s : State) (c : FaultCode) : (s.enterFault c).Inv where
  finalIdle _ := rfl
  faultIdle _ := rfl
  errIff := by simp [c.code_ne_zero]
  errCode := c.code_le_eight
  pc := rfl
  emptyIV e := by simp at e

theorem State.Inv.err_eq_zero {s : State} (h : s.Inv) (hx : s.phase ≠ .fault) : s.err = 0#4 :=
  not_not.1 (mt h.errIff.1 hx)

theorem State.Inv.phase_ne_of_busy {s : State} (h : s.Inv) (hq : s.seq ≠ .idle) : s.phase ≠ .final ∧ s.phase ≠ .fault :=
  ⟨mt h.finalIdle hq, mt h.faultIdle hq⟩

theorem State.Inv.t_eq_zero {s : State} (h : s.Inv) (hq : s.seq = .idle) : s.t = 0#7 := by
  simpa [State.legalPc, hq] using h.pc

theorem legalPc_advance_expand {m : State} {t : BitVec 7} (hq : m.seq = .expand) (ht : 16 ≤ t.toNat) :
    (m.advance t .unpack).legalPc = true := by
  rcases advance_cases m t .unpack with ⟨hlt, e⟩ | ⟨-, e⟩
  · rw [e]
    simp only [State.legalPc, hq, indexIn_iff, toNat_add_one hlt]
    omega
  · rw [e]; rfl

theorem legalPc_advance_round {m : State} {t : BitVec 7} (hq : m.seq = .round) : (m.advance t .feed).legalPc = true := by
  rcases advance_cases m t .feed with ⟨hlt, e⟩ | ⟨-, e⟩
  · rw [e]
    simp only [State.legalPc, hq, indexIn_iff, toNat_add_one hlt]
    omega
  · rw [e]; rfl

/-- The engine's step keeps the invariants. -/
theorem EngineEffect.inv {s u : State} (h : EngineEffect s u) (hs : s.Inv) : u.Inv := by
  cases h with
  | idle => exact hs
  | expand hq ht =>
    obtain ⟨hf, hx⟩ := hs.phase_ne_of_busy (by simp [hq])
    exact hs.of_legalPc hf hx (by simp) (by simp) (by simp) (legalPc_advance_expand (by simp [hq]) ht.1)
  | unpack hq ht =>
    obtain ⟨hf, hx⟩ := hs.phase_ne_of_busy (by simp [hq])
    exact hs.of_legalPc hf hx rfl rfl rfl rfl
  | round hq ht f k =>
    obtain ⟨hf, hx⟩ := hs.phase_ne_of_busy (by simp [hq])
    exact hs.of_legalPc hf hx (by simp) (by simp) (by simp) (legalPc_advance_round (by simp [hq]))
  | feed hq ht =>
    obtain ⟨-, hx⟩ := hs.phase_ne_of_busy (by simp [hq])
    exact State.inv_of_idle (.inl rfl) rfl rfl (hs.err_eq_zero hx)
  | badIndex hb => exact absurd hb (not_badIndex_of_legalPc hs.pc)

/-- A transaction keeps the invariants. -/
theorem TxnEffect.inv {s u : State} {w : BitVec 40} (h : TxnEffect s w u) (hs : s.Inv) : u.Inv := by
  cases h with
  | init => exact State.inv_of_empty rfl rfl rfl rfl rfl
  | next hd hp hq hf hm => exact hs.of_legalPc hf hp rfl rfl rfl rfl
  | final hd hq hp => exact State.inv_of_idle (.inr rfl) hq (hs.t_eq_zero hq) (hs.err_eq_zero (by simp [hp]))
  | wrblk i d hd hp hq hf => exact hs.of_legalPc hf hp rfl rfl rfl hs.pc
  | rdstat => exact hs.of_sameRegs (sameRegs_respond ..)
  | rddig => exact hs.of_sameRegs (sameRegs_respond ..)
  | refused => exact hs.of_sameRegs (sameRegs_respond ..)
  | faulted c => exact (s.inv_enterFault c).of_sameRegs (sameRegs_respond ..)

/-- Settles O37: the registers R240 specifies are the ones the invariants speak of. -/
theorem resetMeetsInvariant : Obligations.ResetMeetsInvariant := State.inv_of_empty rfl rfl rfl rfl rfl

/-- Settles O38, by cases on what the step did: each agent's part keeps the invariants, and a reset sets them up. -/
theorem stepKeepsInvariant : Obligations.StepKeepsInvariant := by
  intro s u hs h
  cases stepEffect_of_step h with
  | engine m u hm hp he => exact he.inv (hs.of_sameRegs hm.toSameRegs)
  | txn m u w rest hm hp hpm he => exact he.inv (hs.of_sameRegs hm.toSameRegs)
  | wait m rest hm => exact (hs.of_sameRegs hm.toSameRegs).of_sameRegs (sameRegs_respond ..)
  | reset m rest hm => exact State.inv_of_empty rfl rfl rfl rfl rfl

end Sys2Proof.Machine
end

section
namespace Sys2Proof.Machine

/-! ### One step from a good state: phase, `H`, the fault record -/

/-- An idle engine has no step (R28, R86). -/
theorem EngineEffect.eq_of_idle {s u : State} (h : EngineEffect s u) (hq : s.seq = .idle) : u = s := by
  cases h with
  | idle => rfl
  | expand g => simp [hq] at g
  | unpack g => simp [hq] at g
  | round g => simp [hq] at g
  | feed g => simp [hq] at g
  | badIndex g => simp [hq] at g

/-- The engine changes `phase` at the end of a block only (R150). -/
theorem EngineEffect.phase {s u : State} (h : EngineEffect s u) (hpc : s.legalPc = true) :
    u.phase = s.phase ∨ (s.seq = .feed ∧ u.phase = .accum) := by
  cases h with
  | feed hq => exact .inr ⟨hq, rfl⟩
  | badIndex hb => exact absurd hb (not_badIndex_of_legalPc hpc)
  | _ => left; simp

/-- The engine writes `H` in `FEED` only (R21, R150). -/
theorem EngineEffect.H {s u : State} (h : EngineEffect s u) : u.H = s.H ∨ s.seq = .feed := by
  cases h with
  | feed hq => exact .inr hq
  | _ => left; simp

/-- At a legal program counter the engine raises nothing (R36 item 3). -/
theorem EngineEffect.faultLog {s u : State} (h : EngineEffect s u) (hpc : s.legalPc = true) : u.faultLog = s.faultLog := by
  cases h with
  | badIndex hb => exact absurd hb (not_badIndex_of_legalPc hpc)
  | _ => simp

/-- The changes of `phase` by a transaction (R161, R163, R216). -/
theorem TxnEffect.phase {s u : State} {w : BitVec 40} (h : TxnEffect s w u) :
    u.phase = s.phase ∨ (decodeTW w = .instr .init ∧ u.phase = .empty) ∨
      (decodeTW w = .instr .final ∧ s.phase = .accum ∧ u.phase = .final) ∨ (s.phase ≠ .fault ∧ u.phase = .fault) := by
  cases h with
  | init hd => exact .inr (.inl ⟨hd, rfl⟩)
  | final hd hq hp => exact .inr (.inr (.inl ⟨hd, hp, rfl⟩))
  | faulted c hc hp => exact .inr (.inr (.inr ⟨hp, rfl⟩))
  | _ => left; rfl

/-- A transaction writes `H` by `INIT` only (R21, R161). -/
theorem TxnEffect.H {s u : State} {w : BitVec 40} (h : TxnEffect s w u) : u.H = s.H ∨ decodeTW w = .instr .init := by
  cases h with
  | init hd => exact .inr hd
  | _ => left; rfl

/-- No transaction raises `E_ROUND_INDEX` (R224). -/
theorem TxnEffect.faultLog {s u : State} {w : BitVec 40} (h : TxnEffect s w u) :
    u.faultLog = s.faultLog ∨ ∃ c, c ≠ .eRoundIndex ∧ u.faultLog = s.faultLog ++ [c] := by
  cases h with
  | faulted c hc => exact .inr ⟨c, hc, rfl⟩
  | _ => left; rfl

/-- A transaction in phase `FAULT` (R170): `INIT`, or no register changes. -/
theorem TxnEffect.of_fault {s u : State} {w : BitVec 40} (h : TxnEffect s w u) (hx : s.phase = .fault) :
    SameRegs s u ∨ (decodeTW w = .instr .init ∧ u = s.loadIV.respond true false 0#32) := by
  cases h with
  | init hd => exact .inr ⟨hd, rfl⟩
  | rdstat => exact .inl (sameRegs_respond ..)
  | refused => exact .inl (sameRegs_respond ..)
  | next hd hp => exact absurd hx hp
  | final hd hq hp => simp [hx] at hp
  | wrblk i d hd hp => exact absurd hx hp
  | rddig i hd hp => simp [hx] at hp
  | faulted c hc hp => exact absurd hx hp

theorem SameRegs.trans {a b c : State} (h : SameRegs a b) (g : SameRegs b c) : SameRegs a c := by
  obtain ⟨⟩ := h
  obtain ⟨⟩ := g
  constructor <;> simp only [*]

/-- Settles O34: in phase `FAULT` the engine is idle, so what can happen is a refusal, `RDSTAT`, `INIT` or a reset. -/
theorem faultIsSticky : Obligations.FaultIsSticky := by
  intro s u hs hx h
  cases stepEffect_of_step h with
  | engine m u hm hp he =>
    rw [he.eq_of_idle (hm.seq.trans (hs.faultIdle hx))]
    exact .inl hm.toSameRegs
  | txn m u w rest hm hp hpm he =>
    rcases he.of_fault (hm.phase.trans hx) with same | ⟨hd, rfl⟩
    · exact .inl (hm.toSameRegs.trans same)
    · exact .inr ⟨.inl ⟨w, rest, hp, hd⟩, rfl, rfl, rfl, rfl, rfl, rfl⟩
  | wait m rest hm => exact .inl (hm.toSameRegs.trans (sameRegs_respond ..))
  | reset m rest hm hp => exact .inr ⟨.inr ⟨rest, hp⟩, rfl, rfl, rfl, rfl, rfl, rfl⟩

/-- Settles O39, by cases on what the step did.  That `FEED` finds phase `EMPTY` where it changes the phase is the invariant:
a busy engine is in `EMPTY` or `ACCUM`. -/
theorem phaseTransitions : Obligations.PhaseTransitions := by
  refine ⟨⟨rfl, rfl, rfl, rfl⟩, fun s u hs h hne => ?_⟩
  cases stepEffect_of_step h with
  | engine m u hm hp he =>
    rcases he.phase ((legalPc_of_sameButSchedule hm).trans hs.pc) with same | ⟨hq, hu⟩
    · exact absurd (same.trans hm.phase) hne
    · rw [hm.seq] at hq
      obtain ⟨hf, hx⟩ := hs.phase_ne_of_busy (by simp [hq])
      have hempty : s.phase = .empty := by
        cases hph : s.phase <;> simp_all
      exact .inr (.inl ⟨hempty, hu, hq⟩)
  | txn m u w rest hm hp hpm he =>
    rcases he.phase with same | ⟨hd, hu⟩ | ⟨hd, hacc, hu⟩ | ⟨hx, hu⟩
    · exact absurd (same.trans hm.phase) hne
    · exact .inl ⟨hu, .inl ⟨w, rest, hp, hd⟩⟩
    · exact .inr (.inr (.inl ⟨hm.phase ▸ hacc, hu, w, rest, hp, hd⟩))
    · exact .inr (.inr (.inr ⟨hm.phase ▸ hx, hu⟩))
  | wait m rest hm => exact absurd hm.phase hne
  | reset m rest hm hp => exact .inl ⟨rfl, .inr ⟨rest, hp⟩⟩

/-- Settles O41: the engine writes `H` in `FEED` only, where it is busy and so not in phase `FINAL`. -/
theorem digestIsImmutable : Obligations.DigestIsImmutable := by
  intro s u hs h hne
  cases stepEffect_of_step h with
  | engine m u hm hp he =>
    rcases he.H with same | hq
    · exact absurd (same.trans hm.H) hne
    · rw [hm.seq] at hq
      exact .inl ⟨hq, (hs.phase_ne_of_busy (by simp [hq])).1⟩
  | txn m u w rest hm hp hpm he =>
    rcases he.H with same | hd
    · exact absurd (same.trans hm.H) hne
    · exact .inr (.inl ⟨w, rest, hp, hd⟩)
  | wait m rest hm => exact absurd hm.H hne
  | reset m rest hm hp => exact .inr (.inr ⟨rest, hp⟩)

/-- Settles O43: only a word of bit 38 stops a step (`step_total`), and only a bad program counter raises `E_ROUND_INDEX`. -/
theorem noStopFromGoodStates : Obligations.NoStopFromGoodStates := by
  intro s
  refine ⟨(step_total s).imp (fun ⟨u, e, _⟩ => ⟨u, e⟩) id, fun hs u h => ?_⟩
  cases stepEffect_of_step h with
  | engine m u hm hp he =>
    exact .inl ((he.faultLog ((legalPc_of_sameButSchedule hm).trans hs.pc)).trans hm.faultLog)
  | txn m u w rest hm hp hpm he => simpa only [hm.faultLog] using he.faultLog
  | wait m rest hm => exact .inl hm.faultLog
  | reset m rest hm => exact .inl hm.faultLog

end Sys2Proof.Machine
end

section
namespace Sys2Proof.Machine

/-! ### Two states in step

What the steps of two states with the same control can do together, said once; the statements about pairs of states do cases
on it. -/

/-- Two results go together: both are next states, related by `R`, or both are the same refusal. -/
def Lockstep (R : State → State → Prop) (x y : Result) : Prop :=
  (∃ s' u', x = .next s' ∧ y = .next u' ∧ R s' u') ∨ (∃ r, x = .refused r ∧ y = .refused r)

theorem Lockstep.next {R : State → State → Prop} {s u : State} (h : R s u) : Lockstep R (.next s) (.next u) :=
  .inl ⟨s, u, rfl, rfl, h⟩

theorem Lockstep.mono {R Q : State → State → Prop} {x y : Result} (h : Lockstep R x y) (hRQ : ∀ a b, R a b → Q a b) :
    Lockstep Q x y :=
  h.imp (fun ⟨a, b, hx, hy, hR⟩ => ⟨a, b, hx, hy, hRQ a b hR⟩) id

/-- The two sides take the same branch. -/
theorem Lockstep.ite {R : State → State → Prop} {p q : Prop} [Decidable p] [Decidable q] {x x' y y' : Result} (hpq : p ↔ q)
    (ht : p → Lockstep R x y) (hf : ¬p → Lockstep R x' y') :
    Lockstep R (if p then x else x') (if q then y else y') := by
  by_cases hp : p
  · rw [if_pos hp, if_pos (hpq.1 hp)]
    exact ht hp
  · rw [if_neg hp, if_neg (mt hpq.2 hp)]
    exact hf hp

/-! ### Two transactions in step -/

/-- What one transaction from two states of the same phase, `BUSY` and `BLKFULL` can lead to. -/
inductive TxnPair (s u : State) : State → State → Prop where
  | init : TxnPair s u (s.loadIV.respond true false 0#32) (u.loadIV.respond true false 0#32)
  | next (hq : s.busy = false) (hm : s.blkFull = true) :
      TxnPair s u ((s.loadBlock.jump .expand 16#7).respond true false 0#32)
        ((u.loadBlock.jump .expand 16#7).respond true false 0#32)
  | final (hq : s.busy = false) :
      TxnPair s u ((s.setPhase .final).respond true false 0#32) ((u.setPhase .final).respond true false 0#32)
  | wrblk (i : BitVec 4) (d : Word) (hq : s.busy = false) :
      TxnPair s u ((s.writeBlock i d).respond true false 0#32) ((u.writeBlock i d).respond true false 0#32)
  | rdstat : TxnPair s u (s.respond false false s.statusWord) (u.respond false false u.statusWord)
  | rddig (i : Fin 5) (hp : s.phase = .final) :
      TxnPair s u (s.respond false false s.H[i]) (u.respond false false u.H[i])
  | refused (we : Bool) : TxnPair s u (s.refuse we) (u.refuse we)
  | raised (we : Bool) (c : FaultCode) : TxnPair s u (s.raiseTxn we c) (u.raiseTxn we c)

/-- The registers a transaction's checks read (R169) are the same. -/
structure SameGuards (s u : State) : Prop where
  phase : s.phase = u.phase
  busy : s.busy = u.busy
  blkFull : s.blkFull = u.blkFull

theorem State.busy_eq_false_iff (s : State) : s.busy = false ↔ s.seq = .idle := by simp [State.busy]

theorem State.blkFull_iff (s : State) : s.blkFull = true ↔ s.MV = 0xFFFF#16 := by simp [State.blkFull]

namespace SameGuards
variable {s u : State} (g : SameGuards s u)
include g

theorem phase_eq_iff (p : Phase) : s.phase = p ↔ u.phase = p := by rw [g.phase]

theorem seq_ne_idle_iff : s.seq ≠ .idle ↔ u.seq ≠ .idle := by
  rw [Ne, Ne, ← s.busy_eq_false_iff, ← u.busy_eq_false_iff, g.busy]

theorem MV_ne_iff : s.MV ≠ 0xFFFF#16 ↔ u.MV ≠ 0xFFFF#16 := by
  rw [Ne, Ne, ← s.blkFull_iff, ← u.blkFull_iff, g.blkFull]

theorem illegalTxn_lockstep (we : Bool) (c : FaultCode) : Lockstep (TxnPair s u) (illegalTxn we c s) (illegalTxn we c u) :=
  .ite (g.phase_eq_iff _) (fun _ => .next (.refused we)) fun _ => .next (.raised we c)

theorem readDigest_lockstep (i : Fin 5) : Lockstep (TxnPair s u) (readDigest i s) (readDigest i u) :=
  .ite (g.phase_eq_iff _) (fun _ => .next (.refused false)) fun _ =>
  .ite (not_congr (g.phase_eq_iff _)) (fun _ => .next (.raised false .eNotFinal)) fun hp => .next (.rddig i (not_not.1 hp))

/-- The checks that `NEXT`, `FINAL` and `WRBLK` have in common (R169, R220): phase `FAULT`, then busy. -/
theorem idleChecks_lockstep {x y : Result} (h : s.busy = false → Lockstep (TxnPair s u) x y) :
    Lockstep (TxnPair s u)
      (if s.phase = .fault then .next (s.refuse true) else if s.seq ≠ .idle then .next (s.raiseTxn true .eBusy) else x)
      (if u.phase = .fault then .next (u.refuse true) else if u.seq ≠ .idle then .next (u.raiseTxn true .eBusy) else y) :=
  .ite (g.phase_eq_iff _) (fun _ => .next (.refused true)) fun _ =>
  .ite g.seq_ne_idle_iff (fun _ => .next (.raised true .eBusy)) fun hq => h (s.busy_eq_false_iff.2 (not_not.1 hq))

theorem execNext_lockstep : Lockstep (TxnPair s u) (execNext s) (execNext u) :=
  g.idleChecks_lockstep fun hq =>
  .ite (g.phase_eq_iff _) (fun _ => .next (.raised true .ePhase)) fun _ =>
  .ite g.MV_ne_iff (fun _ => .next (.raised true .eIncompleteBlock)) fun hm =>
    .next (.next hq (s.blkFull_iff.2 (not_not.1 hm)))

theorem execFinal_lockstep : Lockstep (TxnPair s u) (execFinal s) (execFinal u) :=
  g.idleChecks_lockstep fun hq =>
  .ite (not_congr (g.phase_eq_iff _)) (fun _ => .next (.raised true .ePhase)) fun _ => .next (.final hq)

theorem execWrblk_lockstep (i : BitVec 4) (d : Word) : Lockstep (TxnPair s u) (execWrblk i d s) (execWrblk i d u) :=
  g.idleChecks_lockstep fun hq =>
  .ite (g.phase_eq_iff _) (fun _ => .next (.raised true .ePhase)) fun _ => .next (.wrblk i d hq)

/-- A transaction's checks read `phase`, `BUSY` and `BLKFULL` only (R169), so it does the same kind of thing in both states. -/
theorem txn_lockstep (w : BitVec 40) :
    Lockstep (TxnPair s u) (runVerdict (twWe w) (decodeTW w) s) (runVerdict (twWe w) (decodeTW w) u) := by
  rcases decodeTW_cases w with ⟨-, e⟩ | ⟨-, ⟨-, e | e | e | ⟨i, d, e⟩⟩ | ⟨-, e | ⟨i, e⟩⟩ | e | e | e⟩
  all_goals rw [e]
  · exact .inr ⟨_, rfl, rfl⟩
  · exact .next .init
  · exact g.execNext_lockstep
  · exact g.execFinal_lockstep
  · exact g.execWrblk_lockstep i d
  · exact .next .rdstat
  · simp only [runVerdict, exec_rddig]
    exact g.readDigest_lockstep i
  · exact g.illegalTxn_lockstep _ _
  · exact g.illegalTxn_lockstep _ _
  · exact g.illegalTxn_lockstep _ _

end SameGuards

/-! ### Two engine steps in step -/

/-- What the engine's step from two states of the same program counter can lead to. -/
inductive EnginePair (s u : State) : State → State → Prop where
  | idle (hq : s.seq = .idle) : EnginePair s u s u
  | expand (hq : s.seq = .expand) (ht : 16 ≤ s.t.toNat ∧ s.t.toNat ≤ 79) :
      EnginePair s u ((s.setW s.t.toNat (by omega) (s.expanded s.t.toNat ht)).advance s.t .unpack)
        ((u.setW s.t.toNat (by omega) (u.expanded s.t.toNat ht)).advance s.t .unpack)
  | unpack (hq : s.seq = .unpack) :
      EnginePair s u ((s.setVars s.H[0] s.H[1] s.H[2] s.H[3] s.H[4]).jump .round 0#7)
        ((u.setVars u.H[0] u.H[1] u.H[2] u.H[3] u.H[4]).jump .round 0#7)
  | round (hq : s.seq = .round) (ht : s.t.toNat ≤ 79) (f : Word → Word → Word → Word) (k : Word) :
      EnginePair s u
        ((s.setVars (add32 [rotl 5 s.A, f s.B s.C s.D, s.E, k, s.W[s.t.toNat]]) s.A (rotl 30 s.B) s.C s.D).advance s.t .feed)
        ((u.setVars (add32 [rotl 5 u.A, f u.B u.C u.D, u.E, k, u.W[s.t.toNat]]) u.A (rotl 30 u.B) u.C u.D).advance s.t .feed)
  | feed (hq : s.seq = .feed) :
      EnginePair s u ((s.feedForward.setPhase .accum).jump .idle 0#7) ((u.feedForward.setPhase .accum).jump .idle 0#7)
  | badIndex : EnginePair s u (s.raise .eRoundIndex) (u.raise .eRoundIndex)

/-- R86, R142: the band of a legal round index fixes the selector and the constant, whatever the state holds. -/
theorem exists_roundWith_of_selectRound {t : BitVec 7} (ht : t.toNat ≤ 79) :
    ∃ f k, ∀ s, runMicro (selectRound t) s = roundWith f k t s := by
  unfold selectRound
  split
  · exact ⟨ch, kCh, fun _ => rfl⟩
  split
  · exact ⟨parity, kPar1, fun _ => rfl⟩
  split
  · exact ⟨maj, kMaj, fun _ => rfl⟩
  split
  · exact ⟨parity, kPar2, fun _ => rfl⟩
  · simp only [indexIn_iff] at *
    omega

theorem selectRound_of_gt {t : BitVec 7} (ht : ¬t.toNat ≤ 79) : selectRound t = .roundIndex := by
  simp [selectRound, indexIn, show ¬t.toNat ≤ 19 by omega, show ¬t.toNat ≤ 39 by omega, show ¬t.toNat ≤ 59 by omega, ht]

/-- The engine's step is chosen by `(seq, t)` alone (R86). -/
theorem engineStep_lockstep {s u : State} (hseq : s.seq = u.seq) (ht : s.t = u.t) :
    Lockstep (EnginePair s u) (engineStep s) (engineStep u) := by
  unfold engineStep
  rw [← hseq, ← ht]
  cases hq : s.seq with
  | idle => exact .next (.idle hq)
  | expand =>
    by_cases h : 16 ≤ s.t.toNat ∧ s.t.toNat ≤ 79
    · rw [select, if_pos ((indexIn_iff ..).2 h)]
      simp only [runMicro, exec, execExpand, dif_pos h]
      exact .next (.expand hq h)
    · rw [select, if_neg (mt (indexIn_iff ..).1 h)]
      exact .next .badIndex
  | unpack =>
    rw [select]
    split
    · exact .next (.unpack hq)
    · exact .next .badIndex
  | round =>
    rw [select]
    by_cases h : s.t.toNat ≤ 79
    · obtain ⟨f, k, e⟩ := exists_roundWith_of_selectRound h
      rw [e, e, roundWith_next _ _ _ _ h, roundWith_next _ _ _ _ h]
      exact .next (.round hq h f k)
    · rw [selectRound_of_gt h]
      exact .next .badIndex
  | feed =>
    rw [select]
    split
    · exact .next (.feed hq)
    · exact .next .badIndex

/-! ### Two steps in step -/

/-- What makes a relation between states one that every step keeps: it fixes the control state, it says nothing of the program
and the schedule but that they agree, and a reset, a transaction and the engine's step keep it. -/
structure KeptByStep (R : State → State → Prop) : Prop where
  control {s u : State} : R s u → SameControl s u
  reschedule {s u m n : State} : R s u → SameButSchedule s m → SameButSchedule u n → m.program = n.program →
    m.turns = n.turns → m.draws = n.draws → R m n
  reset {s u : State} : R s u → R s.resetEvent u.resetEvent
  txn {s u a b : State} : R s u → TxnPair s u a b → R a b
  engine {s u a b : State} : R s u → EnginePair s u a b → R a b

namespace SameControl
variable {s u : State} (c : SameControl s u)
include c

theorem sameGuards : SameGuards s u where
  phase := c.phase
  busy := by rw [State.busy, State.busy, c.seq]
  blkFull := by rw [State.blkFull, State.blkFull, c.MV]

theorem statusWord_eq : s.statusWord = u.statusWord := by
  rw [State.statusWord, State.statusWord, c.err, c.phase, c.sameGuards.busy, c.sameGuards.blkFull]

theorem remaining_eq : remaining s = remaining u := by
  unfold remaining
  rw [c.program, c.sameGuards.busy]

theorem turn_eq : s.turn = u.turn := by
  unfold State.turn
  rw [c.turns, c.draws]

theorem hostTurn_turns_eq : s.hostTurn.turns = u.hostTurn.turns := by
  unfold State.hostTurn
  rw [c.turns, c.draws]
  split <;> rfl

theorem hostTurn_draws_eq : s.hostTurn.draws = u.hostTurn.draws := by
  unfold State.hostTurn
  rw [c.turns]
  split <;> simp only [c.draws]

theorem engineTurn_turns_eq : s.engineTurn.turns = u.engineTurn.turns := by
  unfold State.engineTurn
  rw [c.turns]
  split <;> rfl

theorem engineTurn_draws_eq : s.engineTurn.draws = u.engineTurn.draws := by
  unfold State.engineTurn
  rw [c.turns]
  split <;> simp only [c.draws]

end SameControl

namespace KeptByStep
variable {R : State → State → Prop} (hR : KeptByStep R) {s u : State} (h : R s u)
include hR h

theorem consume : R s.consume u.consume :=
  hR.reschedule h (sameButSchedule_consume s) (sameButSchedule_consume u) (hR.control h).remaining_eq (hR.control h).turns
    (hR.control h).draws

theorem hostTurn : R s.hostTurn u.hostTurn :=
  hR.reschedule h (sameButSchedule_hostTurn s) (sameButSchedule_hostTurn u) (by simpa using (hR.control h).program)
    (hR.control h).hostTurn_turns_eq (hR.control h).hostTurn_draws_eq

theorem engineTurn : R s.engineTurn u.engineTurn :=
  hR.reschedule h (sameButSchedule_engineTurn s) (sameButSchedule_engineTurn u) (by simpa using (hR.control h).program)
    (hR.control h).engineTurn_turns_eq (hR.control h).engineTurn_draws_eq

theorem engineStep_lockstep : Lockstep R (engineStep s) (engineStep u) :=
  (Machine.engineStep_lockstep (hR.control h).seq (hR.control h).t).mono fun _ _ => hR.engine h

theorem hostStep_lockstep : Lockstep R (hostStep s) (hostStep u) := by
  have hc := hR.consume h
  unfold hostStep
  rw [← (hR.control h).program]
  rcases s.program with _ | ⟨it, rest⟩
  · exact .next h
  cases it with
  | txn w => exact ((hR.control hc).sameGuards.txn_lockstep w).mono fun _ _ => hR.txn hc
  | wait => exact .next (hR.txn hc .rdstat)
  | reset => exact .next (hR.reset hc)

/-- The step itself: which agent goes is a matter of control (R160). -/
theorem step_lockstep : Lockstep R (step s) (step u) :=
  .ite (by rw [(hR.control h).program]) (fun _ => hR.engineStep_lockstep h) fun _ =>
  .ite (by rw [(hR.control h).seq]) (fun _ => hR.hostStep_lockstep h) fun _ =>
  .ite (by rw [(hR.control h).turn_eq]) (fun _ => hR.engineStep_lockstep (hR.engineTurn h)) fun _ =>
    hR.hostStep_lockstep (hR.hostTurn h)

end KeptByStep

end Sys2Proof.Machine
end

section
namespace Sys2Proof.Machine

/-! ### The same control (R33) -/

namespace SameControl
variable {s u : State} (c : SameControl s u)
include c

/-- The data of an answer are no control, its direction and error bit are. -/
theorem respond (we err : Bool) (d d' : Word) : SameControl (s.respond we err d) (u.respond we err d') :=
  { c with errors := by simp [c.errors] }

theorem advance (n : BitVec 7) (q : Seq) : SameControl (s.advance n q) (u.advance n q) := by
  unfold State.advance
  split
  · exact { c with t := rfl }
  · exact { c with seq := rfl, t := rfl }

theorem setW {n : Nat} (hn : n < 80) (x x' : Word) : SameControl (s.setW n hn x) (u.setW n hn x') := { c with }

theorem setVars (v w x y z v' w' x' y' z' : Word) : SameControl (s.setVars v w x y z) (u.setVars v' w' x' y' z') := { c with }

theorem enterFault (f : FaultCode) : SameControl (s.enterFault f) (u.enterFault f) :=
  { c with phase := rfl, err := rfl, seq := rfl, t := rfl, faultLog := by simp [c.faultLog] }

theorem raise (f : FaultCode) : SameControl (s.raise f) (u.raise f) := by
  unfold State.raise
  rw [c.phase]
  split
  · exact { c with seq := rfl, t := rfl }
  · exact c.enterFault f

theorem reschedule {m n : State} (hm : SameButSchedule s m) (hn : SameButSchedule u n) (hp : m.program = n.program)
    (ht : m.turns = n.turns) (hd : m.draws = n.draws) : SameControl m n where
  MV := by rw [hm.MV, hn.MV, c.MV]
  phase := by rw [hm.phase, hn.phase, c.phase]
  seq := by rw [hm.seq, hn.seq, c.seq]
  t := by rw [hm.t, hn.t, c.t]
  err := by rw [hm.err, hn.err, c.err]
  program := hp
  turns := ht
  draws := hd
  faultLog := by rw [hm.faultLog, hn.faultLog, c.faultLog]
  errors := by rw [hm.responses, hn.responses, c.errors]

theorem resetEvent : SameControl s.resetEvent u.resetEvent :=
  { c with MV := rfl, phase := rfl, seq := rfl, t := rfl, err := rfl, draws := by simp [c.draws] }

theorem txn {a b : State} (h : TxnPair s u a b) : SameControl a b := by
  cases h with
  | init =>
    have hIV : SameControl s.loadIV u.loadIV := { c with MV := rfl, phase := rfl, seq := rfl, t := rfl, err := rfl }
    exact hIV.respond ..
  | next =>
    have hload : SameControl (s.loadBlock.jump .expand 16#7) (u.loadBlock.jump .expand 16#7) :=
      { c with MV := rfl, seq := rfl, t := rfl }
    exact hload.respond ..
  | final =>
    have hfinal : SameControl (s.setPhase .final) (u.setPhase .final) := { c with phase := rfl }
    exact hfinal.respond ..
  | wrblk i d =>
    have hwrite : SameControl (s.writeBlock i d) (u.writeBlock i d) := { c with MV := by simp [c.MV] }
    exact hwrite.respond ..
  | rdstat => exact c.respond ..
  | rddig i => exact c.respond ..
  | refused we => exact c.respond ..
  | raised we f => exact (c.raise f).respond ..

theorem engine {a b : State} (h : EnginePair s u a b) : SameControl a b := by
  cases h with
  | idle => exact c
  | expand hq ht => exact (c.setW ..).advance ..
  | unpack => exact { c with seq := rfl, t := rfl }
  | round hq ht f k => exact (c.setVars ..).advance ..
  | feed => exact { c with phase := rfl, seq := rfl, t := rfl }
  | badIndex => exact c.raise _

end SameControl

theorem sameControl_keptByStep : KeptByStep SameControl where
  control := id
  reschedule h := h.reschedule
  reset h := h.resetEvent
  txn h hp := h.txn hp
  engine h hp := h.engine hp

/-- Settles O51: having the same control is a relation that every step keeps. -/
theorem controlDoesNotDependOnData : Obligations.ControlDoesNotDependOnData :=
  fun _ _ c => sameControl_keptByStep.step_lockstep c

/-! ### The registers a run can still read (R36 item 4) -/

/-- What `AgreeOnLive` adds to the same control: the answers, `H`, and the live data registers. -/
theorem SameControl.agreeOnLive {s u : State} (c : SameControl s u) (H : s.H = u.H) (responses : s.responses = u.responses)
    (vars : s.seq = .round ∨ s.seq = .feed → s.A = u.A ∧ s.B = u.B ∧ s.C = u.C ∧ s.D = u.D ∧ s.E = u.E)
    (W : ∀ i (h : i < 80), s.liveW i → s.W[i] = u.W[i])
    (M : ∀ i (h : i < 16), s.MV.getLsbD i = true → s.M[i] = u.M[i]) : AgreeOnLive s u :=
  { c with H, responses, vars, W, M }

/-- An idle engine has no live `A..E` and no live schedule word. -/
theorem SameControl.agreeOnLive_of_idle {s u : State} (c : SameControl s u) (hq : s.seq = .idle) (H : s.H = u.H)
    (responses : s.responses = u.responses) (M : ∀ i (h : i < 16), s.MV.getLsbD i = true → s.M[i] = u.M[i]) :
    AgreeOnLive s u :=
  c.agreeOnLive H responses (by simp [hq]) (fun i hi hl => by simp [State.liveW, hq] at hl) M

/-- `WRBLK k` sets no written-flag but `MV[k]` (R26, R164). -/
theorem getLsbD_writeBlock_MV_of_ne {s : State} {k : BitVec 4} {d : Word} {i : Nat} (hk : k.toNat ≠ i) :
    (s.writeBlock k d).MV.getLsbD i = s.MV.getLsbD i := by
  have hbit : (1#16 <<< k.toNat).getLsbD i = false := by
    simp
    omega
  rw [State.writeBlock_MV, BitVec.getLsbD_or, hbit, Bool.or_false]

theorem State.liveW_expand_iff (s : State) (hq : s.seq = .expand) (i : Nat) : s.liveW i ↔ i < s.t.toNat := by
  simp [State.liveW, hq]

theorem State.liveW_unpack (s : State) (hq : s.seq = .unpack) (i : Nat) : s.liveW i := by simp [State.liveW, hq]

theorem State.liveW_round_iff (s : State) (hq : s.seq = .round) (i : Nat) : s.liveW i ↔ s.t.toNat ≤ i := by
  simp [State.liveW, hq]

/-- `EXPAND` at `t` makes no schedule word live but `W[t]`. -/
theorem le_of_liveW_advance_expand {m : State} {t : BitVec 7} {i : Nat} (hq : m.seq = .expand) (hi : i < 80)
    (hl : (m.advance t .unpack).liveW i) : i ≤ t.toNat := by
  rcases advance_cases m t .unpack with ⟨hlt, e⟩ | ⟨hge, -⟩
  · rw [e, State.liveW_expand_iff { m with t := t + 1 } hq, toNat_add_one hlt] at hl
    omega
  · omega

/-- `ROUND` at `t` makes no schedule word live. -/
theorem le_of_liveW_advance_round {m : State} {t : BitVec 7} {i : Nat} (hq : m.seq = .round)
    (hl : (m.advance t .feed).liveW i) : t.toNat ≤ i := by
  rcases advance_cases m t .feed with ⟨hlt, e⟩ | ⟨-, e⟩
  · rw [e, State.liveW_round_iff { m with t := t + 1 } hq, toNat_add_one hlt] at hl
    omega
  · rw [e] at hl
    exact hl.elim

namespace AgreeOnLive
variable {s u : State} (h : AgreeOnLive s u)
include h

theorem control : SameControl s u := { h with errors := by rw [h.responses] }

theorem respond (we err : Bool) (d : Word) : AgreeOnLive (s.respond we err d) (u.respond we err d) :=
  { h with responses := by simp [h.responses] }

theorem reschedule {m n : State} (hm : SameButSchedule s m) (hn : SameButSchedule u n) (hp : m.program = n.program)
    (ht : m.turns = n.turns) (hd : m.draws = n.draws) : AgreeOnLive m n := by
  refine (h.control.reschedule hm hn hp ht hd).agreeOnLive ?_ ?_ ?_ ?_ ?_
  · rw [hm.H, hn.H, h.H]
  · rw [hm.responses, hn.responses, h.responses]
  · rw [hm.seq, hm.A, hm.B, hm.C, hm.D, hm.E, hn.A, hn.B, hn.C, hn.D, hn.E]
    exact h.vars
  · unfold State.liveW
    rw [hm.seq, hm.t, hm.W, hn.W]
    exact h.W
  · rw [hm.MV, hm.M, hn.M]
    exact h.M

/-- A reset event gives both states the same unspecified registers, so there is nothing left to differ that is live. -/
theorem resetEvent : AgreeOnLive s.resetEvent u.resetEvent :=
  h.control.resetEvent.agreeOnLive_of_idle rfl rfl h.responses (by simp)

/-- `LOADBLK` makes the first sixteen schedule words live, from a block of which every word is written (R131, R162). -/
theorem loadBlock_W (hm : s.blkFull = true) {i : Nat} (hi : i < 16) : s.loadBlock.W[i] = u.loadBlock.W[i] := by
  have hflag : s.MV.getLsbD i = true := by
    rw [s.blkFull_iff.1 hm]
    interval_cases i <;> rfl
  simpa [hi] using h.M i hi hflag

theorem writeBlock_M (k : BitVec 4) (d : Word) {i : Nat} (hi : i < 16) (hflag : (s.writeBlock k d).MV.getLsbD i = true) :
    (s.writeBlock k d).M[i] = (u.writeBlock k d).M[i] := by
  by_cases hk : k.toNat = i
  · simp [hk]
  · rw [getLsbD_writeBlock_MV_of_ne hk] at hflag
    simpa [Vector.getElem_set, hk] using h.M i hi hflag

theorem txn {a b : State} (hp : TxnPair s u a b) : AgreeOnLive a b := by
  have c := h.control.txn hp
  have hresp := h.responses
  cases hp with
  | init => exact c.agreeOnLive_of_idle rfl rfl (by simp [hresp]) (by simp)
  | next hq hm =>
    refine c.agreeOnLive h.H (by simp [hresp]) (by simp) (fun i hi hl => h.loadBlock_W hm hl) (by simp)
  | final hq => exact c.agreeOnLive_of_idle (s.busy_eq_false_iff.1 hq) h.H (by simp [hresp]) h.M
  | wrblk k d hq =>
    exact c.agreeOnLive_of_idle (s.busy_eq_false_iff.1 hq) h.H (by simp [hresp]) fun i hi => h.writeBlock_M k d hi
  | rdstat =>
    rw [h.control.statusWord_eq]
    exact h.respond ..
  | rddig i =>
    rw [h.H]
    exact h.respond ..
  | refused we => exact h.respond ..
  | raised we f =>
    refine c.agreeOnLive_of_idle ?_ ?_ ?_ ?_ <;> simp only [State.raiseTxn]
    · simp
    · simpa using h.H
    · simp [hresp]
    · simpa using h.M

/-- The schedule words `EXPAND` reads are written before it (R132). -/
theorem expanded_eq (hq : s.seq = .expand) (ht : 16 ≤ s.t.toNat ∧ s.t.toNat ≤ 79) :
    s.expanded s.t.toNat ht = u.expanded s.t.toNat ht := by
  have live : ∀ i, i < s.t.toNat → ∀ hi : i < 80, s.W[i] = u.W[i] := fun i hlt hi =>
    h.W i hi ((s.liveW_expand_iff hq i).2 hlt)
  unfold State.expanded
  rw [live _ (by omega), live _ (by omega), live _ (by omega), live _ (by omega)]

theorem engine {a b : State} (hp : EnginePair s u a b) : AgreeOnLive a b := by
  have c := h.control.engine hp
  cases hp with
  | idle => exact h
  | expand hq ht =>
    refine c.agreeOnLive (by simpa using h.H) (by simpa using h.responses) ?_ (fun i hi hl => ?_) (by simpa using h.M)
    · rcases advance_cases (s.setW s.t.toNat (by omega) (s.expanded s.t.toNat ht)) s.t .unpack with ⟨-, e⟩ | ⟨-, e⟩ <;>
        simp [e, hq]
    · have hle := le_of_liveW_advance_expand (by simpa using hq) hi hl
      simp only [State.advance_W, State.setW_W, Vector.getElem_set]
      split
      · exact h.expanded_eq hq ht
      · exact h.W i hi ((s.liveW_expand_iff hq i).2 (by omega))
  | unpack hq =>
    refine c.agreeOnLive h.H h.responses (fun _ => ?_) (fun i hi _ => h.W i hi (s.liveW_unpack hq i)) h.M
    simp [h.H]
  | round hq ht f k =>
    obtain ⟨hA, hB, hC, hD, hE⟩ := h.vars (.inl hq)
    refine c.agreeOnLive (by simpa using h.H) (by simpa using h.responses) (fun _ => ?_) (fun i hi hl => ?_)
      (by simpa using h.M)
    · have hW := h.W s.t.toNat (by omega) ((s.liveW_round_iff hq _).2 le_rfl)
      simp [hA, hB, hC, hD, hE, hW]
    · have hle := le_of_liveW_advance_round (by simpa using hq) hl
      simpa using h.W i hi ((s.liveW_round_iff hq i).2 hle)
  | feed hq =>
    obtain ⟨hA, hB, hC, hD, hE⟩ := h.vars (.inr hq)
    exact c.agreeOnLive_of_idle rfl (by simp [h.H, hA, hB, hC, hD, hE]) h.responses h.M
  | badIndex => exact c.agreeOnLive_of_idle (by simp) (by simpa using h.H) (by simpa using h.responses) (by simpa using h.M)

end AgreeOnLive

theorem agreeOnLive_keptByStep : KeptByStep AgreeOnLive where
  control := AgreeOnLive.control
  reschedule h := h.reschedule
  reset h := h.resetEvent
  txn h hp := h.txn hp
  engine h hp := h.engine hp

/-- Settles O49: agreeing on the live registers is a relation that every step keeps. -/
theorem unwrittenRegistersNeverMatter : Obligations.UnwrittenRegistersNeverMatter :=
  fun _ _ h => agreeOnLive_keptByStep.step_lockstep h

end Sys2Proof.Machine
end

section
namespace Sys2Proof.Machine

/-! ### What the host can see (R34) -/

/-- R85: `BUSY` is bit 0 of `STATUS`. -/
theorem State.statusWord_getLsbD_zero (s : State) : s.statusWord.getLsbD 0 = s.busy := by
  rw [State.statusWord, BitVec.getLsbD_setWidth, BitVec.getLsbD_append]
  simp

/-- R85: `BLKFULL` is bit 1 of `STATUS`. -/
theorem State.statusWord_getLsbD_one (s : State) : s.statusWord.getLsbD 1 = s.blkFull := by
  rw [State.statusWord, BitVec.getLsbD_setWidth, BitVec.getLsbD_append, BitVec.getLsbD_append]
  simp

/-- R85: the phase is in bits 5..4 of `STATUS`. -/
theorem State.statusWord_phase (s : State) : s.statusWord.extractLsb' 4 2 = s.phase.bits := by
  apply BitVec.eq_of_getLsbD_eq
  intro i hi
  rw [State.statusWord, BitVec.getLsbD_extractLsb', BitVec.getLsbD_setWidth, BitVec.getLsbD_append, BitVec.getLsbD_append,
    BitVec.getLsbD_append, BitVec.getLsbD_append]
  interval_cases i <;> simp

theorem Phase.bits_injective {p q : Phase} (h : p.bits = q.bits) : p = q := by
  revert h
  cases p <;> cases q <;> decide

/-- `STATUS` shows everything a transaction's checks read. -/
theorem SameToHost.sameGuards {s u : State} (h : SameToHost s u) : SameGuards s u where
  phase := Phase.bits_injective (by rw [← s.statusWord_phase, ← u.statusWord_phase, h.status])
  busy := by rw [← s.statusWord_getLsbD_zero, ← u.statusWord_getLsbD_zero, h.status]
  blkFull := by rw [← s.statusWord_getLsbD_one, ← u.statusWord_getLsbD_one, h.status]

/-- The two transactions of a pair deliver the same response. -/
theorem TxnPair.exists_response {s u a b : State} (hp : TxnPair s u a b) (h : SameToHost s u) :
    ∃ r, a.responses = s.responses ++ [r] ∧ b.responses = u.responses ++ [r] := by
  cases hp with
  | rdstat => exact ⟨_, rfl, by rw [h.status]; rfl⟩
  | rddig i hf => exact ⟨_, rfl, by rw [h.digest hf]; rfl⟩
  | raised we c => exact ⟨_, (answered_raiseTxn s we c).responses, (answered_raiseTxn u we c).responses⟩
  | _ => exact ⟨_, rfl, rfl⟩

/-- A transaction word (bit 38 clear) is not refused. -/
theorem runVerdict_ne_refused {s : State} {w : BitVec 40} (hz : twZ w = false) (r : Refusal) :
    runVerdict (twWe w) (decodeTW w) s ≠ .refused r := by
  rcases txn_total s w with ⟨u, e, -⟩ | ⟨-, hz'⟩
  · simp [e]
  · simp [hz] at hz'

/-- Settles O52: the checks read nothing that `STATUS` does not show, and the two reads answer `STATUS` and, in `FINAL`, `H`. -/
theorem hostSeesStatusAndDigestOnly : Obligations.HostSeesStatusAndDigestOnly := by
  intro s u w h hz
  rcases h.sameGuards.txn_lockstep w with ⟨a, b, ha, hb, hp⟩ | ⟨r, hr, -⟩
  · obtain ⟨r, hs, hu⟩ := hp.exists_response h
    exact ⟨a, b, r, ha, hb, hs, hu⟩
  · exact absurd hr (runVerdict_ne_refused hz r)

/-! ### Several instances (R35, R231) -/

/-- What a step at place `k` that answers a next system does: nothing where the list has no such place, else the own step of the
machine there. -/
theorem System.stepAt_cases {sys sys' : System} {k : Nat} (h : sys.stepAt k = .next sys') :
    (sys[k]? = none ∧ sys' = sys) ∨ ∃ s s', sys[k]? = some s ∧ step s = .next s' ∧ sys' = sys.set k s' := by
  unfold System.stepAt at h
  cases hk : sys[k]? with
  | none =>
    rw [hk] at h
    cases h
    exact .inl ⟨rfl, rfl⟩
  | some s =>
    simp only [hk] at h
    cases hs : step s with
    | next s' =>
      rw [hs] at h
      cases h
      exact .inr ⟨s, s', rfl, hs, rfl⟩
    | fault r => nomatch r
    | refused r =>
      rw [hs] at h
      cases h

/-- Settles O53: the new system is the old one with the stepped machine put in its place. -/
theorem instancesAreIndependent : Obligations.InstancesAreIndependent := by
  intro sys sys' k h
  rcases System.stepAt_cases h with ⟨hk, rfl⟩ | ⟨s, s', hk, hs, rfl⟩
  · exact ⟨rfl, fun _ _ => rfl, fun s hs => by simp [hk] at hs⟩
  · refine ⟨List.length_set, fun j hj => List.getElem?_set_ne hj.symm, fun t ht => ?_⟩
    obtain rfl : s = t := Option.some.inj (hk.symm.trans ht)
    obtain ⟨hlt, -⟩ := List.getElem?_eq_some_iff.1 hk
    exact ⟨s', hs, List.getElem?_set_self hlt⟩

end Sys2Proof.Machine
end

section
namespace Sys2Proof.Machine

/-! ### Reads and block writes done twice (20_memory.md R56) -/

theorem exec_rdstat (s : State) : exec .rdstat s = .next (s.respond false false s.statusWord) := rfl

@[simp] theorem State.respond_statusWord (s : State) (we err : Bool) (d : Word) :
    (s.respond we err d).statusWord = s.statusWord := rfl

/-- R166: in phase `FINAL` the digest window is open. -/
theorem exec_rddig_of_final {s : State} (h : s.phase = .final) (i : Fin 5) :
    exec (Instr.rddig i) s = .next (s.respond false false s.H[i]) := by
  simp [exec_rddig, readDigest, h]

/-- A legal read answers the same word before and after its own answer. -/
theorem exec_read_repeats {s : State} {i : Instr} (h : i = .rdstat ∨ (s.phase = .final ∧ ∃ j, i = Instr.rddig j)) :
    ∃ d, exec i s = .next (s.respond false false d) ∧
      exec i (s.respond false false d) = .next ((s.respond false false d).respond false false d) := by
  rcases h with rfl | ⟨hf, j, rfl⟩
  · refine ⟨s.statusWord, exec_rdstat s, ?_⟩
    rw [exec_rdstat, State.respond_statusWord]
  · have hf' : (s.respond false false s.H[j]).phase = .final := hf
    exact ⟨s.H[j], exec_rddig_of_final hf j, exec_rddig_of_final hf' j⟩

/-- A block write (R164) is accepted, or leaves the block as it was and the engine in phase `FAULT` (R170, R216). -/
theorem exec_wrblk_cases {s u : State} {i : BitVec 4} {d : Word} (h : exec (.wrblk i d) s = .next u) :
    (s.phase ≠ .fault ∧ u = (s.writeBlock i d).respond true false 0#32) ∨
    (u.phase = .fault ∧ u.M = s.M ∧ u.MV = s.MV) := by
  simp only [exec, execWrblk] at h
  split at h
  · cases h
    exact .inr ⟨‹_›, rfl, rfl⟩
  split at h
  · cases h
    exact .inr (by simp [State.raiseTxn])
  split at h
  · cases h
    exact .inr (by simp [State.raiseTxn])
  · cases h
    exact .inl ⟨‹_›, rfl⟩

theorem State.writeBlock_writeBlock (s : State) (i : BitVec 4) (d : Word) :
    (s.writeBlock i d).writeBlock i d = s.writeBlock i d := by
  simp [State.writeBlock, BitVec.or_assoc]

/-- Settles O42.  A legal read's answer changes nothing the read depends on.  A second block write changes the block only when it
is accepted, and then the first was accepted too: otherwise the phase would be `FAULT`. -/
theorem readsAndBlockWritesAreIdempotent : Obligations.ReadsAndBlockWritesAreIdempotent := by
  constructor
  · intro s u v i hi hu hv
    obtain ⟨d, first, second⟩ := exec_read_repeats hi
    cases first.symm.trans hu
    cases second.symm.trans hv
    exact ⟨sameRegs_respond .., sameRegs_respond .., _, rfl, rfl, rfl⟩
  · intro s u v i d hu hv
    rcases exec_wrblk_cases hv with ⟨hx, rfl⟩ | ⟨-, hM, hMV⟩
    · rcases exec_wrblk_cases hu with ⟨-, rfl⟩ | ⟨hfault, -⟩
      · have hM := congrArg State.M (s.writeBlock_writeBlock i d)
        have hMV := congrArg State.MV (s.writeBlock_writeBlock i d)
        exact ⟨hM, hMV⟩
      · exact absurd hfault hx
    · exact ⟨hM, hMV⟩

/-! ### The schedule's own fields (R60, 43_commands.md R160) -/

theorem State.hostTurn_eq (s : State) : s.hostTurn = { s with turns := s.hostTurn.turns, draws := s.hostTurn.draws } := by
  unfold State.hostTurn
  split <;> rfl

theorem State.engineTurn_eq (s : State) :
    s.engineTurn = { s with turns := s.engineTurn.turns, draws := s.engineTurn.draws } := by
  unfold State.engineTurn
  split <;> rfl

/-- Fixed already or drawn now, the choice is counted down by one. -/
theorem State.hostTurn_turn (s : State) : s.hostTurn.turn = s.turn - 1 := by
  cases h : s.turns <;> simp [State.turn, State.hostTurn, h]

/-- Settles O10. -/
theorem turnsAreOnlyTheSchedule : Obligations.TurnsAreOnlyTheSchedule := fun s =>
  ⟨⟨_, _, s.hostTurn_eq⟩, ⟨_, _, s.engineTurn_eq⟩, fun _ => s.hostTurn_turn⟩

end Sys2Proof.Machine
end

section
namespace Sys2Proof

/-! ### The address map (20_memory.md R53) -/

theorem portReg_eq_ctrl_iff : ∀ a : BitVec 6, portReg a = .ctrl ↔ a = 0x00#6 := by decide

theorem portReg_eq_status_iff : ∀ a : BitVec 6, portReg a = .status ↔ a = 0x01#6 := by decide

theorem portReg_eq_block_iff : ∀ (i : BitVec 4) (a : BitVec 6), portReg a = .block i ↔ a = 1#2 ++ i := by decide

theorem portReg_eq_digest_iff : ∀ (i : Fin 5) (a : BitVec 6), portReg a = .digest i ↔ a = BitVec.ofNat 6 (0x20 + i.val) := by
  decide

theorem exists_portReg_eq_block_iff : ∀ a : BitVec 6, (∃ i, portReg a = .block i) ↔ 0x10#6 ≤ a ∧ a ≤ 0x1F#6 := by decide

theorem exists_portReg_eq_digest_iff : ∀ a : BitVec 6, (∃ i, portReg a = .digest i) ↔ 0x20#6 ≤ a ∧ a ≤ 0x24#6 := by decide

theorem portReg_eq_reserved_iff :
    ∀ a : BitVec 6, portReg a = .reserved ↔ (0x02#6 ≤ a ∧ a ≤ 0x0F#6) ∨ (0x25#6 ≤ a ∧ a ≤ 0x3F#6) := by decide

/-! ### The words of the encoder decode (30_encoding.md R81, R82, R86) -/

@[simp] theorem decodeTW_mkTW (we : Bool) (a : BitVec 6) (d : Word) : decodeTW (mkTW we a d) = decodeRequest we a d := by
  simp [decodeTW]

@[simp] theorem decodeSW_mkSW_code (q : Seq) (t : BitVec 7) : decodeSW (mkSW q.code t) = .selects (select q t) := by
  simp [decodeSW]

/-- R82: the word of `WRBLK` decodes for every block index and every data word. -/
theorem decodeRequest_wrblk (i : BitVec 4) (d : Word) : decodeRequest true (1#2 ++ i) d = .instr (.wrblk i d) := by
  simp only [decodeRequest, (portReg_eq_block_iff i _).2 rfl]

/-- R82: the read of a digest word decodes to its `RDDIG`. -/
theorem decodeRequest_rddig (i : Fin 5) (d : Word) :
    decodeRequest false (BitVec.ofNat 6 (0x20 + i.val)) d = .instr (Instr.rddig i) := by
  simp only [decodeRequest, (portReg_eq_digest_iff i _).2 rfl]

/-- R86: in its own band a round index selects the row of that band. -/
theorem selectRound_of_wf {i : Instr} {t : BitVec 7} (hi : i ∈ [.roundCh t, .roundPar1 t, .roundMaj t, .roundPar2 t])
    (h : i.wf = true) : selectRound t = .instr i := by
  simp only [List.mem_cons, List.not_mem_nil, or_false] at hi
  rcases hi with rfl | rfl | rfl | rfl <;> simp only [Instr.wf, indexIn_iff] at h
  · simp [selectRound, indexIn, h]
  · simp [selectRound, indexIn, h, show ¬t.toNat ≤ 19 by omega]
  · simp [selectRound, indexIn, h, show ¬t.toNat ≤ 19 by omega, show ¬t.toNat ≤ 39 by omega]
  · simp [selectRound, indexIn, h, show ¬t.toNat ≤ 19 by omega, show ¬t.toNat ≤ 39 by omega, show ¬t.toNat ≤ 59 by omega]

/-- A micro-operation's word is the program counter that selects it. -/
theorem decode_mkSW {q : Seq} {t : BitVec 7} {i : Instr} (h : select q t = .instr i) :
    decode (.sw (mkSW q.code t)) = some i := by
  simp [decode, h, SeqVerdict.toInstr]

/-- Settles O1: the host's rows decode by their fields, the engine's by the program counter that selects them. -/
theorem decodeOfEncode : Obligations.DecodeOfEncode := by
  intro i h
  cases i with
  | init | next | final | rdstat | rddig0 | rddig1 | rddig2 | rddig3 | rddig4 => decide
  | wrblk i d => simp [encode, decode, decodeRequest_wrblk, TxnVerdict.toInstr]
  | expand t => exact decode_mkSW (q := .expand) (if_pos h)
  | unpack | feed => decide
  | roundCh t | roundPar1 t | roundMaj t | roundPar2 t =>
    exact decode_mkSW (q := .round) (selectRound_of_wf (by simp) h)

end Sys2Proof
end

section
namespace Sys2Proof

/-! ### A transaction word and its fields (30_encoding.md R81) -/

/-- A word with bit 38 clear is put together from its three fields. -/
theorem mkTW_fields {w : BitVec 40} (hz : twZ w = false) : mkTW (twWe w) (twAddr w) (twWdata w) = w := by
  apply BitVec.eq_of_getLsbD_eq
  intro j hj
  rw [mkTW, BitVec.getLsbD_append, BitVec.getLsbD_append, BitVec.getLsbD_append]
  by_cases h32 : j < 32
  · simp [h32, twWdata]
  · have hj' : 32 ≤ j := by omega
    have hz' : w[38] = false := hz
    interval_cases j <;> simp [twWe, twAddr, hz']

/-- The mask of the read rows clears `wdata` and nothing else. -/
theorem mkTW_and_readMask (we : Bool) (a : BitVec 6) (d : Word) :
    mkTW we a d &&& 0xFF00000000#40 = mkTW we a 0#32 := by
  have h : (BitVec.ofBool we ++ 0#1 ++ a ++ d) &&& (BitVec.allOnes 8 ++ 0#32) = BitVec.ofBool we ++ 0#1 ++ a ++ 0#32 := by
    rw [BitVec.and_append, BitVec.and_allOnes, BitVec.and_zero]
  exact h

/-- R81: the word with `wdata` cleared where its direction ignores it, that is on a read. -/
def canonicalTW (w : BitVec 40) : BitVec 40 := if twWe w then w else w &&& 0xFF00000000#40

theorem canonicalTW_mkTW (we : Bool) (a : BitVec 6) (d : Word) :
    canonicalTW (mkTW we a d) = mkTW we a (if we then d else 0#32) := by
  cases we <;> simp [canonicalTW, mkTW_and_readMask]

theorem twZ_canonicalTW (w : BitVec 40) : twZ (canonicalTW w) = twZ w := by
  unfold canonicalTW
  split <;> simp [twZ]

/-! ### Inverting the transaction decoder (R82) -/

theorem encode_rddig : ∀ i : Fin 5, encode (Instr.rddig i) = .tw (mkTW false (BitVec.ofNat 6 (0x20 + i.val)) 0#32) := by
  decide

theorem Instr.agent_rddig : ∀ i : Fin 5, (Instr.rddig i).agent = .host := by decide

/-- R84: what the command word can select. -/
theorem decodeCommand_cases (d : Word) :
    (d = 1#32 ∧ decodeCommand d = .instr .init) ∨ (d = 2#32 ∧ decodeCommand d = .instr .next) ∨
    (d = 3#32 ∧ decodeCommand d = .instr .final) ∨
    ((d ≠ 1#32 ∧ d ≠ 2#32 ∧ d ≠ 3#32) ∧ decodeCommand d = .illegalCommand) := by
  unfold decodeCommand
  by_cases h1 : d = 1#32
  · simp [h1]
  by_cases h2 : d = 2#32
  · simp [h2]
  by_cases h3 : d = 3#32 <;> simp [h1, h2, h3]

theorem encode_of_decodeRequest {we : Bool} {a : BitVec 6} {d : Word} {i : Instr} (h : decodeRequest we a d = .instr i) :
    i.agent = .host ∧ encode i = .tw (mkTW we a (if we then d else 0#32)) := by
  unfold decodeRequest at h
  split at h
  · next hr =>
    obtain rfl := (portReg_eq_ctrl_iff a).1 hr
    rcases decodeCommand_cases d with ⟨rfl, e⟩ | ⟨rfl, e⟩ | ⟨rfl, e⟩ | ⟨-, e⟩
    all_goals cases e.symm.trans h
    all_goals exact ⟨rfl, rfl⟩
  · next hr =>
    obtain rfl := (portReg_eq_status_iff a).1 hr
    cases h
    exact ⟨rfl, rfl⟩
  · next k hr =>
    obtain rfl := (portReg_eq_block_iff k a).1 hr
    cases h
    exact ⟨rfl, rfl⟩
  · next k hr =>
    obtain rfl := (portReg_eq_digest_iff k a).1 hr
    cases h
    exact ⟨Instr.agent_rddig k, encode_rddig k⟩
  all_goals cases h

/-- A verdict that only a transaction can have is given by the three fields of the port. -/
theorem decodeTW_eq_iff {w : BitVec 40} {v : TxnVerdict} (hv : v ≠ .notTransaction) :
    decodeTW w = v ↔ twZ w = false ∧ decodeRequest (twWe w) (twAddr w) (twWdata w) = v := by
  cases hz : twZ w <;> simp [decodeTW, hz, hv.symm]

theorem decodeTW_eq_notTransaction_iff {w : BitVec 40} : decodeTW w = .notTransaction ↔ twZ w = true := by
  rcases decodeTW_cases w with ⟨hz, e⟩ | ⟨hz, ⟨-, e | e | e | ⟨i, d, e⟩⟩ | ⟨-, e | ⟨i, e⟩⟩ | e | e | e⟩ <;> simp [hz, e]

/-- R81: a read's verdict does not depend on `wdata`. -/
theorem decodeTW_canonicalTW (w : BitVec 40) : decodeTW (canonicalTW w) = decodeTW w := by
  cases hz : twZ w
  · rw [← mkTW_fields hz, canonicalTW_mkTW, decodeTW_mkTW, decodeTW_mkTW]
    cases twWe w
    · simp only [decodeRequest]
      cases portReg (twAddr w) <;> rfl
    · rfl
  · rw [decodeTW_eq_notTransaction_iff.2 hz, decodeTW_eq_notTransaction_iff.2 ((twZ_canonicalTW w).trans hz)]

theorem TxnVerdict.toInstr_eq_some_iff {v : TxnVerdict} {i : Instr} : v.toInstr = some i ↔ v = .instr i := by
  cases v <;> simp [TxnVerdict.toInstr]

theorem SeqVerdict.toInstr_eq_some_iff {v : SeqVerdict} {i : Instr} : v.toInstr = some i ↔ v = .selects (.instr i) := by
  rcases v with (_ | _ | _) | _ <;> simp [SeqVerdict.toInstr]

/-- The host's instructions have no illegal operand (R86 restricts the indices of micro-operations only). -/
theorem Instr.wf_of_agent_host {i : Instr} (h : i.agent = .host) : i.wf = true := by
  cases i with
  | init | next | final | wrblk i d | rdstat | rddig0 | rddig1 | rddig2 | rddig3 | rddig4 => rfl
  | expand t | unpack | roundCh t | roundPar1 t | roundMaj t | roundPar2 t | feed => cases h

/-- R82 as one equivalence: a word decodes to a host instruction exactly when it is that instruction's word, up to a read's
`wdata`. -/
theorem decodeTW_eq_instr_iff {w : BitVec 40} {i : Instr} :
    decodeTW w = .instr i ↔ i.agent = .host ∧ encode i = .tw (canonicalTW w) := by
  constructor
  · intro h
    obtain ⟨hz, hr⟩ := (decodeTW_eq_iff (by simp)).1 h
    rw [← mkTW_fields hz, canonicalTW_mkTW]
    exact encode_of_decodeRequest hr
  · rintro ⟨ha, he⟩
    have hd := decodeOfEncode i (Instr.wf_of_agent_host ha)
    rw [he] at hd
    rw [← decodeTW_canonicalTW]
    exact TxnVerdict.toInstr_eq_some_iff.1 hd

/-! ### Inverting the sequencer decoder (R86) -/

theorem mkSW_fields (w : BitVec 10) : mkSW (swSeq w) (swT w) = w := BitVec.extractLsb'_append_extractLsb'

theorem Seq.eq_code_of_ofCode {q : Seq} : ∀ {c : BitVec 3}, Seq.ofCode c = some q → c = q.code := by
  cases q <;> decide

theorem wf_and_encode_of_select {q : Seq} {t : BitVec 7} {i : Instr} (h : select q t = .instr i) :
    i.wf = true ∧ encode i = .sw (mkSW q.code t) := by
  unfold select at h
  split at h
  · cases h
  · split at h <;> cases h
    exact ⟨‹_›, rfl⟩
  · split at h <;> cases h
    exact ⟨rfl, by rw [‹t = 0#7›]; rfl⟩
  · unfold selectRound at h
    repeat' split at h
    all_goals cases h
    all_goals exact ⟨‹_›, rfl⟩
  · split at h <;> cases h
    exact ⟨rfl, by rw [‹t = 0#7›]; rfl⟩

/-- A sequencer word that decodes to an instruction is that instruction's word, and the instruction's index is legal. -/
theorem wf_and_encode_of_decodeSW {w : BitVec 10} {i : Instr} (h : decodeSW w = .selects (.instr i)) :
    i.wf = true ∧ encode i = .sw w := by
  unfold decodeSW at h
  split at h
  · next q hq =>
    rw [← mkSW_fields w, Seq.eq_code_of_ofCode hq]
    exact wf_and_encode_of_select (SeqVerdict.selects.inj h)
  · cases h

/-- Settles O2: a write's word and a sequencer word are the instruction's own, a read's is it with `wdata` cleared. -/
theorem encodeOfDecode : Obligations.EncodeOfDecode := by
  intro c i h
  cases c with
  | tw w =>
    obtain ⟨ha, he⟩ := decodeTW_eq_instr_iff.1 (TxnVerdict.toInstr_eq_some_iff.1 h)
    refine ⟨Instr.wf_of_agent_host ha, ?_⟩
    unfold canonicalTW at he
    split at he
    · exact .inl he
    · next hwe => exact .inr ⟨w, rfl, Bool.eq_false_iff.2 hwe, he⟩
  | sw w => exact (wf_and_encode_of_decodeSW (SeqVerdict.toInstr_eq_some_iff.1 h)).imp id .inl

end Sys2Proof
end

section
namespace Sys2Proof

/-! ### The decode table, row by row (30_encoding.md R82) -/

theorem twWe_and_readMask (w : BitVec 40) : twWe (w &&& 0xFF00000000#40) = twWe w := by simp [twWe]

theorem twWe_canonicalTW (w : BitVec 40) : twWe (canonicalTW w) = twWe w := by
  unfold canonicalTW
  split
  · rfl
  · exact twWe_and_readMask w

/-- A row of writes whose mask is the whole word. -/
theorem decodeTW_eq_write_iff {w m : BitVec 40} {i : Instr} (ha : i.agent = .host) (he : encode i = .tw m)
    (hm : twWe m = true) : decodeTW w = .instr i ↔ w &&& 0xFFFFFFFFFF#40 = m := by
  rw [decodeTW_eq_instr_iff, he, CodeWord.tw.injEq, show w &&& 0xFFFFFFFFFF#40 = w from BitVec.and_allOnes]
  constructor
  · rintro ⟨-, rfl⟩
    exact (if_pos ((twWe_canonicalTW w).symm.trans hm)).symm
  · rintro rfl
    exact ⟨ha, (if_pos hm).symm⟩

/-- A row of reads, whose mask leaves `wdata` out. -/
theorem decodeTW_eq_read_iff {w m : BitVec 40} {i : Instr} (ha : i.agent = .host) (he : encode i = .tw m)
    (hm : twWe m = false) : decodeTW w = .instr i ↔ w &&& 0xFF00000000#40 = m := by
  rw [decodeTW_eq_instr_iff, he, CodeWord.tw.injEq]
  constructor
  · rintro ⟨-, rfl⟩
    exact (if_neg (Bool.eq_false_iff.1 ((twWe_canonicalTW w).symm.trans hm))).symm
  · rintro rfl
    exact ⟨ha, (if_neg (Bool.eq_false_iff.1 ((twWe_and_readMask w).symm.trans hm))).symm⟩

/-- The word of `WRBLK` is the row's `match` digit, the block index and the data. -/
theorem mkTW_wrblk (i : BitVec 4) (d : Word) : mkTW true (1#2 ++ i) d = (0x9#4 ++ i : BitVec 8) ++ d := by
  have h : ∀ i : BitVec 4, BitVec.ofBool true ++ 0#1 ++ (1#2 ++ i) = (0x9#4 ++ i : BitVec 8) := by decide
  exact congrArg (· ++ d) (h i)

theorem mkTW_wrblk_eq_iff {w : BitVec 40} {i : BitVec 4} {d : Word} :
    mkTW true (1#2 ++ i) d = w ↔
      w &&& 0xF000000000#40 = 0x9000000000#40 ∧ i = w.extractLsb' 32 4 ∧ d = w.extractLsb' 0 32 := by
  rw [mkTW_wrblk]
  constructor
  · rintro rfl
    refine ⟨?_, ?_, BitVec.extractLsb'_append_eq_right.symm⟩
    · have h : ((0x9#4 ++ i : BitVec 8) ++ d) &&& ((BitVec.allOnes 4 ++ 0#4 : BitVec 8) ++ 0#32) = 0x90#8 ++ 0#32 := by
        rw [BitVec.and_append, BitVec.and_append, BitVec.and_allOnes, BitVec.and_zero, BitVec.and_zero]
        rfl
      exact h
    · rw [BitVec.extractLsb'_append_eq_of_le (by omega)]
      exact BitVec.extractLsb'_append_eq_right.symm
  · rintro ⟨hm, rfl, rfl⟩
    have top : w.extractLsb' 36 4 = 0x9#4 := by
      have h := congrArg (BitVec.extractLsb' 36 4) hm
      rwa [BitVec.extractLsb'_and, show BitVec.extractLsb' 36 4 0xF000000000#40 = BitVec.allOnes 4 by decide,
        BitVec.and_allOnes] at h
    rw [← top, BitVec.extractLsb'_append_extractLsb'_eq_extractLsb' (by rfl)]
    exact BitVec.extractLsb'_append_extractLsb'

/-- The row of `WRBLK`, the only one with operands. -/
theorem decodeTW_eq_wrblk_iff {w : BitVec 40} {i : BitVec 4} {d : Word} :
    decodeTW w = .instr (.wrblk i d) ↔
      w &&& 0xF000000000#40 = 0x9000000000#40 ∧ i = w.extractLsb' 32 4 ∧ d = w.extractLsb' 0 32 := by
  rw [decodeTW_eq_write_iff rfl rfl (twWe_mkTW ..), show w &&& 0xFFFFFFFFFF#40 = w from BitVec.and_allOnes, eq_comm,
    mkTW_wrblk_eq_iff]

/-! ### The illegal classes, by the register that is addressed (R82, R83) -/

/-- A written command word is a command or the illegal command, no other class (R84). -/
theorem decodeCommand_ne (d : Word) : decodeCommand d ≠ .illegalDirection ∧ decodeCommand d ≠ .illegalAddress := by
  rcases decodeCommand_cases d with ⟨-, e⟩ | ⟨-, e⟩ | ⟨-, e⟩ | ⟨-, e⟩ <;> simp [e]

theorem decodeCommand_eq_illegalCommand_iff {d : Word} :
    decodeCommand d = .illegalCommand ↔ d ≠ 1#32 ∧ d ≠ 2#32 ∧ d ≠ 3#32 := by
  rcases decodeCommand_cases d with ⟨rfl, e⟩ | ⟨rfl, e⟩ | ⟨rfl, e⟩ | ⟨h, e⟩ <;> simp [e]
  exact h

theorem decodeRequest_eq_illegalCommand_iff {we : Bool} {a : BitVec 6} {d : Word} :
    decodeRequest we a d = .illegalCommand ↔ we = true ∧ a = 0x00#6 ∧ d ≠ 1#32 ∧ d ≠ 2#32 ∧ d ≠ 3#32 := by
  rw [← portReg_eq_ctrl_iff, ← decodeCommand_eq_illegalCommand_iff]
  cases hr : portReg a <;> cases we <;> simp [decodeRequest, hr]

theorem decodeRequest_eq_illegalDirection_iff {we : Bool} {a : BitVec 6} {d : Word} :
    decodeRequest we a d = .illegalDirection ↔
      (we = false ∧ (a = 0x00#6 ∨ 0x10#6 ≤ a ∧ a ≤ 0x1F#6)) ∨ (we = true ∧ (a = 0x01#6 ∨ 0x20#6 ≤ a ∧ a ≤ 0x24#6)) := by
  rw [← portReg_eq_ctrl_iff, ← portReg_eq_status_iff, ← exists_portReg_eq_block_iff, ← exists_portReg_eq_digest_iff]
  cases hr : portReg a <;> cases we <;> simp [decodeRequest, hr, decodeCommand_ne]

theorem decodeRequest_eq_illegalAddress_iff {we : Bool} {a : BitVec 6} {d : Word} :
    decodeRequest we a d = .illegalAddress ↔ (0x02#6 ≤ a ∧ a ≤ 0x0F#6) ∨ (0x25#6 ≤ a ∧ a ≤ 0x3F#6) := by
  rw [← portReg_eq_reserved_iff]
  cases hr : portReg a <;> cases we <;> simp [decodeRequest, hr, decodeCommand_ne]

/-- Every word is a host instruction's or in one of the four illegal classes. -/
theorem decodeTW_exhaustive (w : BitVec 40) :
    (∃ i, decodeTW w = .instr i ∧ i.agent = .host) ∨ decodeTW w = .illegalCommand ∨ decodeTW w = .illegalDirection ∨
      decodeTW w = .illegalAddress ∨ decodeTW w = .notTransaction := by
  cases h : decodeTW w with
  | instr i => exact .inl ⟨i, rfl, (decodeTW_eq_instr_iff.1 h).1⟩
  | illegalCommand | illegalDirection | illegalAddress | notTransaction => simp

/-- Settles O3: the instruction rows by the word of their instruction, the illegal classes by the addressed register. -/
theorem transactionWordRows : Obligations.TransactionWordRows := by
  intro w
  refine ⟨?_, ?_, ?_, fun i d => decodeTW_eq_wrblk_iff, ?_, ?_, ?_, ?_, ?_, ?_, ?_, ?_, ?_, decodeTW_eq_notTransaction_iff,
    decodeTW_exhaustive w⟩
  iterate 3 exact decodeTW_eq_write_iff rfl rfl rfl
  iterate 6 exact decodeTW_eq_read_iff rfl rfl rfl
  · rw [decodeTW_eq_iff (by simp), decodeRequest_eq_illegalCommand_iff]
    exact and_left_comm
  · rw [decodeTW_eq_iff (by simp), decodeRequest_eq_illegalDirection_iff]
    exact Iff.rfl
  · rw [decodeTW_eq_iff (by simp), decodeRequest_eq_illegalAddress_iff]
    exact Iff.rfl

end Sys2Proof
end

section
namespace Sys2Proof

/-! ### The sequencer word, code by code (30_encoding.md R86) -/

theorem decodeSW_mkSW_of_reserved {c : BitVec 3} (hc : Seq.ofCode c = none) (t : BitVec 7) :
    decodeSW (mkSW c t) = .reservedSeq := by
  simp [decodeSW, hc]

/-- Settles O4: the five codes of `seq` select as `select` does, the other three are reserved; the bands of the round index
are twenty indices each. -/
theorem sequencerWordMap : Obligations.SequencerWordMap := by
  intro t
  have sel (q : Seq) : decodeSW (q.code ++ t) = .selects (select q t) := decodeSW_mkSW_code q t
  refine ⟨sel .idle, (sel .expand).trans ?_, (sel .unpack).trans ?_, (sel .round).trans ?_,
    (sel .feed).trans ?_, decodeSW_mkSW_of_reserved rfl t, decodeSW_mkSW_of_reserved rfl t, decodeSW_mkSW_of_reserved rfl t⟩
  · rw [select, apply_ite SeqVerdict.selects]
    simp only [indexIn_iff]
  · exact apply_ite SeqVerdict.selects ..
  · rw [select]
    rcases h : t.toNat / 20 with _ | _ | _ | _ | n
    · exact congrArg _ (selectRound_of_wf (i := .roundCh t) (by simp) ((indexIn_iff ..).2 (by omega)))
    · exact congrArg _ (selectRound_of_wf (i := .roundPar1 t) (by simp) ((indexIn_iff ..).2 (by omega)))
    · exact congrArg _ (selectRound_of_wf (i := .roundMaj t) (by simp) ((indexIn_iff ..).2 (by omega)))
    · exact congrArg _ (selectRound_of_wf (i := .roundPar2 t) (by simp) ((indexIn_iff ..).2 (by omega)))
    · exact congrArg _ (Machine.selectRound_of_gt (by omega))
  · exact apply_ite SeqVerdict.selects ..

/-- Settles O5: fifteen closed words. -/
theorem writtenOutWordsDecode : Obligations.WrittenOutWordsDecode := by
  unfold Obligations.WrittenOutWordsDecode
  decide

end Sys2Proof
end

section
namespace Sys2Proof.Machine

/-! ### The lines of a host program (30_encoding.md R89) -/

/-- R89: an index in range is the address of its block word. -/
theorem wrblk_addr {i : Nat} (hi : i ≤ 15) : BitVec.ofNat 6 (0x10 + i) = 1#2 ++ BitVec.ofNat 4 i := by
  interval_cases i <;> rfl

theorem items_wrblk {i imm : Nat} (hi : i ≤ 15) (himm : imm < 2 ^ 32) :
    (Asm.wrblk i imm).items = some [wrblkItem i (BitVec.ofNat 32 imm)] := if_pos ⟨hi, himm⟩

theorem items_rddig {i : Nat} (hi : i ≤ 4) : (Asm.rddig i).items = some [rddigItem i] := if_pos hi

/-- Settles O6: each line with its operands in range is one word `mkTW`, whose fields and verdict are known. -/
theorem assemblyGivesTheInstruction : Obligations.AssemblyGivesTheInstruction := by
  refine ⟨⟨_, rfl, by decide⟩, ⟨_, rfl, by decide⟩, ⟨_, rfl, by decide⟩, ⟨_, rfl, by decide⟩, fun i imm => ⟨?_, ?_⟩,
    fun i => ⟨?_, ?_⟩, fun a imm => ⟨?_, ?_⟩, fun a => ⟨?_, ?_⟩⟩
  · intro hi himm
    refine ⟨_, items_wrblk hi himm, ?_⟩
    rw [wrblk_addr hi, decodeTW_mkTW, decodeRequest_wrblk]
  · intro h
    exact if_neg (by omega)
  · intro h
    exact ⟨_, items_rddig (by omega), (decodeTW_mkTW ..).trans (decodeRequest_rddig ⟨i, h⟩ _)⟩
  · intro h
    exact if_neg (by omega)
  · intro ha himm
    refine ⟨_, if_pos ⟨ha, himm⟩, twWe_mkTW .., twZ_mkTW .., ?_, ?_⟩
    · exact (congrArg BitVec.toNat (twAddr_mkTW ..)).trans (Nat.mod_eq_of_lt (by omega))
    · exact (congrArg BitVec.toNat (twWdata_mkTW ..)).trans (Nat.mod_eq_of_lt himm)
  · intro h
    exact if_neg (by omega)
  · intro ha
    refine ⟨_, if_pos ha, twWe_mkTW .., twZ_mkTW .., ?_, twWdata_mkTW ..⟩
    exact (congrArg BitVec.toNat (twAddr_mkTW ..)).trans (Nat.mod_eq_of_lt (by omega))
  · intro h
    exact if_neg (by omega)

/-! ### Programs and the pseudo-instructions (30_encoding.md R90, R91) -/

theorem assemble_cons {a : Asm} {p : List Asm} {x y : List HostItem} (ha : a.items = some x) (hp : assemble p = some y) :
    assemble (a :: p) = some (x ++ y) := by
  simp [assemble, ha, hp]

/-- Inversion of `assemble_cons`. -/
theorem exists_of_assemble_cons {a : Asm} {p : List Asm} {z : List HostItem} (h : assemble (a :: p) = some z) :
    ∃ x y, a.items = some x ∧ assemble p = some y ∧ z = x ++ y := by
  unfold assemble at h
  split at h
  · next x y ha hp => exact ⟨x, y, ha, hp, (Option.some.inj h).symm⟩
  · cases h

theorem assemble_append {p q : List Asm} {x y : List HostItem} (hp : assemble p = some x) (hq : assemble q = some y) :
    assemble (p ++ q) = some (x ++ y) := by
  induction p generalizing x with
  | nil =>
    cases hp
    exact hq
  | cons a p ih =>
    obtain ⟨u, v, ha, hv, rfl⟩ := exists_of_assemble_cons hp
    rw [List.append_assoc]
    exact assemble_cons ha (ih hv)

/-- Lines that all assemble, from a list of operands. -/
theorem assemble_map {α : Type} {line : α → Asm} {out : α → List HostItem} (h : ∀ a, (line a).items = some (out a))
    (l : List α) : assemble (l.map line) = some (l.flatMap out) := by
  induction l with
  | nil => rfl
  | cons a l ih => exact assemble_cons (h a) ih

/-- R91: sixteen `WRBLK` in order. -/
theorem assemble_wrblks (ws : Vector Word 16) :
    assemble ((List.finRange 16).map fun i => .wrblk i.val ws[i].toNat) = some (blockItems ws) := by
  have line (i : Fin 16) : (Asm.wrblk i.val ws[i].toNat).items = some [wrblkItem i.val ws[i]] := by
    rw [items_wrblk (by omega) ws[i].isLt, BitVec.ofNat_toNat, BitVec.setWidth_eq]
  rw [assemble_map line, blockItems, List.map_eq_flatMap]

/-- Settles O59: the expansions are one line after the other; the script is its parts in order. -/
theorem pseudoInstructionsExpand : Obligations.PseudoInstructionsExpand := by
  refine ⟨fun ws => ⟨(assemble_wrblks ws).symm, ?_⟩, rfl, by decide, fun p q x y => assemble_append, fun Xs => ?_⟩
  · exact (assemble_cons rfl rfl).symm
  · have blocks : assemble (Xs.map Asm.hashblk) = some (Xs.flatMap hashblkItems) := assemble_map (fun _ => rfl) Xs
    have ending : assemble [.final, .digest] = some (finalItem :: digestItems) := rfl
    exact assemble_cons (x := [initItem]) rfl (assemble_append blocks ending)

/-! ### The host's step (43_commands.md R160) -/

/-- Settles O11: `hostStep_total` for a program with a head, and nothing to do without one. -/
theorem notATransactionIsRefused : Obligations.NotATransactionIsRefused := by
  intro s r
  constructor
  · intro h
    by_cases hne : s.program = []
    · simp [hostStep, hne] at h
    · rcases hostStep_total (.refl s) rfl hne with ⟨u, e, -⟩ | ⟨e, hw⟩
      · cases e.symm.trans h
      · cases e.symm.trans h
        exact ⟨rfl, hw⟩
  · rintro ⟨rfl, w, rest, hp, hz⟩
    simp [hostStep, hp, decodeTW_eq_notTransaction_iff.2 hz, runVerdict]

theorem hostStep_wait {s : State} {rest : List HostItem} (hp : s.program = .wait :: rest) :
    hostStep s = exec .rdstat s.consume := by
  simp [hostStep, hp]

theorem hostStep_reset {s : State} {rest : List HostItem} (hp : s.program = .reset :: rest) :
    hostStep s = .next { s with program := rest }.resetEvent := by
  simp [hostStep, hp, State.consume, remaining]

/-- R91: `WAIT` is done once the engine is not busy. -/
theorem consume_wait_of_idle {s : State} {rest : List HostItem} (hp : s.program = .wait :: rest) (hq : s.seq = .idle) :
    s.consume = { s with program := rest } := by
  simp [State.consume, remaining, hp, State.busy, hq]

/-- R91: `WAIT` stays at the head while the engine is busy. -/
theorem consume_wait_of_busy {s : State} {rest : List HostItem} (hp : s.program = .wait :: rest) (hq : s.seq ≠ .idle) :
    s.consume = s := by
  have h : remaining s = s.program := by simp [remaining, hp, State.busy, hq]
  rw [State.consume, h]

/-- Settles O8: either way the host's step is the head item's, on `s` or on `s` with its turn counted down. -/
theorem stepRunsWaitAndReset : Obligations.StepRunsWaitAndReset := by
  intro s rest
  refine ⟨fun hp => ?_, fun hp => ?_⟩
  all_goals
    have hne : s.program ≠ [] := by simp [hp]
    have hp' := s.hostTurn_program.trans hp
  · refine ⟨fun hq => ?_, fun hq ht => ?_⟩
    · rw [step_of_idle hne hq, hostStep_wait hp, consume_wait_of_idle hp hq]
    · rw [step_of_host_turn hne hq ht, hostStep_wait hp', consume_wait_of_busy hp' (s.hostTurn_seq ▸ hq)]
  · refine ⟨fun hq => ?_, fun hq ht => ?_⟩
    · rw [step_of_idle hne hq, hostStep_reset hp]
    · rw [step_of_host_turn hne hq ht, hostStep_reset hp']

/-! ### The status word (30_encoding.md R85) -/

/-- R85: a field of `STATUS` is a field of the twelve bits in use. -/
theorem State.statusWord_extractLsb' (s : State) {start len : Nat} (h : start + len ≤ 12) :
    s.statusWord.extractLsb' start len =
      (s.err ++ 0#2 ++ s.phase.bits ++ 0#2 ++ BitVec.ofBool s.blkFull ++ BitVec.ofBool s.busy).extractLsb' start len := by
  rw [State.statusWord, BitVec.setWidth_eq_append (by decide)]
  exact BitVec.extractLsb'_append_eq_of_add_le h

theorem State.statusWord_err (s : State) : s.statusWord.extractLsb' 8 4 = s.err := by
  rw [s.statusWord_extractLsb' (by decide)]
  iterate 4 rw [BitVec.extractLsb'_append_eq_of_le (by decide)]
  exact BitVec.extractLsb'_append_eq_left

theorem State.statusWord_reserved_low (s : State) : s.statusWord.extractLsb' 2 2 = 0#2 := by
  rw [s.statusWord_extractLsb' (by decide)]
  iterate 2 rw [BitVec.extractLsb'_append_eq_of_le (by decide)]
  exact BitVec.extractLsb'_append_eq_right

theorem State.statusWord_reserved_middle (s : State) : s.statusWord.extractLsb' 6 2 = 0#2 := by
  rw [s.statusWord_extractLsb' (by decide)]
  iterate 4 rw [BitVec.extractLsb'_append_eq_of_le (by decide)]
  exact BitVec.extractLsb'_append_eq_right

theorem State.statusWord_reserved_high (s : State) : s.statusWord.extractLsb' 12 20 = 0#20 := by
  rw [State.statusWord, BitVec.setWidth_eq_append (by decide)]
  exact BitVec.extractLsb'_append_eq_left

theorem Phase.bits_eq_iff {p : Phase} (q : Phase) : p.bits = q.bits ↔ p = q := ⟨Phase.bits_injective, congrArg _⟩

/-- Settles O19, field by field. -/
theorem statusWordFields : Obligations.StatusWordFields := by
  intro s
  rw [s.statusWord_getLsbD_zero, s.statusWord_getLsbD_one, s.statusWord_phase]
  refine ⟨?_, s.blkFull_iff, s.statusWord_reserved_low,
    ⟨Phase.bits_eq_iff .empty, Phase.bits_eq_iff .accum, Phase.bits_eq_iff .final, Phase.bits_eq_iff .fault⟩,
    s.statusWord_reserved_middle, s.statusWord_err, s.statusWord_reserved_high, rfl, ?_, ?_⟩
  · exact bne_iff_ne
  · exact beq_iff_eq.trans (Phase.bits_eq_iff .final).symm
  · exact beq_iff_eq.trans (Phase.bits_eq_iff .fault).symm

end Sys2Proof.Machine
end

section
namespace Sys2Proof.Machine

/-! ### Rotation (40_word_ops.md R112) -/

/-- R112: an amount that is 0 modulo 32 moves nothing. -/
theorem rotl_of_mod_eq_zero {n : Nat} (h : n % 32 = 0) (w : Word) : rotl n w = w := if_pos h

/-- R112: below position 32 a bit moves up by the amount; one that would leave the word comes back in from bit 0. -/
theorem rotl_getLsbD_add_mod (n : Nat) (w : Word) {i : Nat} (hi : i < 32) :
    (rotl n w).getLsbD ((i + n) % 32) = w.getLsbD i := by
  rw [rotl_eq_rotateLeft, BitVec.getLsbD_rotateLeft]
  by_cases h : i + n % 32 < 32
  · have pos : (i + n) % 32 = i + n % 32 := by omega
    simp [pos, h]
  · have pos : (i + n) % 32 = i + n % 32 - 32 := by omega
    have src : 32 - n % 32 + (i + n % 32 - 32) = i := by omega
    have wraps : i + n % 32 - 32 < n % 32 := by omega
    simp [pos, src, wraps]

/-- R112: a bit that moved up by `r` moves up by `32 - r` more, which is once round the word. -/
theorem rotl_sub_rotl {r : Nat} (hr : r ≤ 32) (w : Word) : rotl (32 - r) (rotl r w) = w := by
  apply BitVec.eq_of_getLsbD_eq
  intro i hi
  have round : ((i + r) % 32 + (32 - r)) % 32 = i := by omega
  calc (rotl (32 - r) (rotl r w)).getLsbD i
      = (rotl (32 - r) (rotl r w)).getLsbD (((i + r) % 32 + (32 - r)) % 32) := by rw [round]
    _ = (rotl r w).getLsbD ((i + r) % 32) := rotl_getLsbD_add_mod _ _ (Nat.mod_lt _ (by decide))
    _ = w.getLsbD i := rotl_getLsbD_add_mod r w hi

/-- Settles O24: the round trip and the identities follow from where each bit goes and from the amount modulo 32. -/
theorem rotlPermutesTheBits : Obligations.RotlPermutesTheBits :=
  ⟨fun n w _ hi => rotl_getLsbD_add_mod n w hi, fun _ w hr => rotl_sub_rotl (Nat.le_succ_of_le hr) w,
    fun w => ⟨rotl_of_mod_eq_zero rfl w, rotl_of_mod_eq_zero rfl w⟩⟩

/-! ### Addition (40_word_ops.md R111) -/

/-- R111: reducing two partial sums and adding them is reducing the whole sum. -/
theorem add32_append (xs ys : List Word) : add32 (xs ++ ys) = add32 xs + add32 ys := by
  simp only [add32, List.map_append, List.sum_append_nat, BitVec.ofNat_add]

theorem add32_singleton (x : Word) : add32 [x] = x := by simp [add32]

theorem add32_cons (x : Word) (xs : List Word) : add32 (x :: xs) = x + add32 xs := by
  rw [← List.singleton_append, add32_append, add32_singleton]

theorem add32_perm {xs ys : List Word} (h : xs.Perm ys) : add32 xs = add32 ys :=
  congrArg (BitVec.ofNat 32) (h.map BitVec.toNat).sum_nat

/-- Settles O25: `ADD32` takes concatenation to addition of words. -/
theorem add32IsOrderFree : Obligations.Add32IsOrderFree := by
  refine ⟨add32_toNat, fun _ _ => add32_perm, fun xs ys => ?_, fun x y => ?_⟩
  · rw [add32_cons, add32_append]
  · rw [add32_cons, add32_singleton]

/-! ### The selector and the round constant (40_word_ops.md R114 to R119) -/

/-- R115: a bit of `B` selects the bit of `C` or of `D`. -/
theorem ch_getLsbD (B C D : Word) {i : Nat} (hi : i < 32) :
    (ch B C D).getLsbD i = if B.getLsbD i then C.getLsbD i else D.getLsbD i := by
  rw [ch, BitVec.getLsbD_or, BitVec.getLsbD_and, BitVec.getLsbD_and, BitVec.getLsbD_not]
  cases B.getLsbD i <;> simp [hi]

theorem parity_getLsbD (B C D : Word) (i : Nat) :
    (parity B C D).getLsbD i = (B.getLsbD i).xor ((C.getLsbD i).xor (D.getLsbD i)) := by
  simp [parity]

/-- R117: two of three bits are 1 iff one of the three pairs is. -/
theorem maj_getLsbD_iff (B C D : Word) (i : Nat) :
    (maj B C D).getLsbD i = true ↔ 2 ≤ (B.getLsbD i).toNat + (C.getLsbD i).toNat + (D.getLsbD i).toNat := by
  have pairs : ∀ b c d : Bool, (b && c || b && d || c && d) = true ↔ 2 ≤ b.toNat + c.toNat + d.toNat := by decide
  simpa [maj] using pairs (B.getLsbD i) (C.getLsbD i) (D.getLsbD i)

/-- R114, R119: four bands of twenty indices each are four entries at `t div 20`; from index 80 on there is no entry. -/
theorem bands_eq_getElem? {α : Type} (t : Nat) (a b c d : α) :
    (if t < 20 then some a else if t < 40 then some b else if t < 60 then some c else if t < 80 then some d else none) =
      [a, b, c, d][t / 20]? := by
  simp only [show t < 20 ↔ t / 20 < 1 by omega, show t < 40 ↔ t / 20 < 2 by omega,
    show t < 60 ↔ t / 20 < 3 by omega, show t < 80 ↔ t / 20 < 4 by omega]
  match t / 20 with
  | 0 | 1 | 2 | 3 => rfl
  | q + 4 => simp

theorem selector_eq_getElem? (t : Nat) (B C D : Word) :
    selector t B C D = [ch B C D, parity B C D, maj B C D, parity B C D][t / 20]? := bands_eq_getElem? t ..

theorem roundK_eq_getElem? (t : Nat) : roundK t = [kCh, kPar1, kMaj, kPar2][t / 20]? := bands_eq_getElem? t ..

/-- Settles O26: each band is one value of `t div 20`. -/
theorem selectorByBandAndBit : Obligations.SelectorByBandAndBit := by
  refine ⟨fun B C D i hi => ⟨ch_getLsbD B C D hi, parity_getLsbD B C D i, maj_getLsbD_iff B C D i⟩, fun t B C D => ?_⟩
  rw [selector_eq_getElem?]
  refine ⟨fun h => ?_, fun l h => ?_, fun l h => ?_, fun l h => ?_, fun l => ?_⟩
  · rw [show t / 20 = 0 by omega]; rfl
  · rw [show t / 20 = 1 by omega]; rfl
  · rw [show t / 20 = 2 by omega]; rfl
  · rw [show t / 20 = 3 by omega]; rfl
  · exact List.getElem?_eq_none (show 4 ≤ t / 20 by omega)

/-- Settles O27: the constants of the four bands are the entries of the table, by definition. -/
theorem roundConstantTable : Obligations.RoundConstantTable := roundK_eq_getElem?

end Sys2Proof.Machine
end

section
namespace Sys2Proof.Machine

/-! ### Parts of every micro-operation: no answer, and the bad index (60_exceptions.md R224) -/

theorem notAnswered_enterFault (s : State) (c : FaultCode) : NotAnswered s (s.enterFault c) := by
  constructor <;> rfl

/-- A micro-operation that ends in `raise E_ROUND_INDEX` enters that fault. -/
theorem raisesRoundIndex_of_exec {i : Instr} {s : State} (h : s.phase ≠ .fault)
    (e : exec i s = .next (s.raise .eRoundIndex)) : RaisesRoundIndex s i := by
  rw [raise_of_phase_ne_fault h] at e
  exact ⟨_, e, faultEntered_enterFault s _, notAnswered_enterFault s _⟩

/-- The end of a counted micro-operation says nothing to the host. -/
theorem notAnswered_advance {s m : State} (h : NotAnswered s m) (n : BitVec 7) (q : Seq) :
    NotAnswered s (m.advance n q) where
  responses := (m.advance_responses n q).trans h.responses
  program := (m.advance_program n q).trans h.program
  turns := (m.advance_turns n q).trans h.turns
  draws := (m.advance_draws n q).trans h.draws

/-! ### `EXPAND` (41_schedule.md R132) -/

theorem notAnswered_setW (s : State) (n : Nat) (h : n < 80) (x : Word) : NotAnswered s (s.setW n h x) := by
  constructor <;> rfl

/-- R86: `EXPAND` at `t` has one word, and it is selected at its legal indices only. -/
theorem decodeSW_eq_expand_iff (w : BitVec 10) (t : BitVec 7) :
    decodeSW w = .selects (.instr (.expand t)) ↔ w = 1#3 ++ t ∧ 16 ≤ t.toNat ∧ t.toNat ≤ 79 := by
  constructor
  · intro h
    obtain ⟨hwf, he⟩ := wf_and_encode_of_decodeSW h
    exact ⟨(CodeWord.sw.inj he).symm, (indexIn_iff ..).1 hwf⟩
  · rintro ⟨rfl, ht⟩
    obtain ⟨-, he, -⟩ := sequencerWordMap t
    exact he.trans (if_pos ht)

theorem exec_expand_of_legal {t : BitVec 7} (ht : 16 ≤ t.toNat ∧ t.toNat ≤ 79) (s : State) :
    exec (.expand t) s = .next ((s.setW t.toNat (by omega) (s.expanded t.toNat ht)).advance t .unpack) := dif_pos ht

theorem exec_expand_of_illegal {t : BitVec 7} (ht : ¬(16 ≤ t.toNat ∧ t.toNat ≤ 79)) (s : State) :
    exec (.expand t) s = .next (s.raise .eRoundIndex) := dif_neg ht

theorem State.expanded_eq_rotateLeft (s : State) (t : Nat) (h : 16 ≤ t ∧ t ≤ 79) :
    s.expanded t h = (s.W[t - 3] ^^^ s.W[t - 8] ^^^ s.W[t - 14] ^^^ s.W[t - 16]).rotateLeft 1 := rotl_eq_rotateLeft 1 _

/-- Settles O20: the word is `EXPAND`'s own; the effect is one `setW` and the counted end; any other index is the bad one. -/
theorem expandWritesOneScheduleWord : Obligations.ExpandWritesOneScheduleWord := by
  refine ⟨decodeSW_eq_expand_iff, fun s t h16 h79 => ?_, fun s t hp ht => ?_⟩
  · refine ⟨_, exec_expand_of_legal ⟨h16, h79⟩ s, fun i hi => ?_, pcAfter_advance t .unpack (by simp), ?_⟩
    · rw [State.advance_W, State.setW_W, Vector.getElem_set, State.expanded_eq_rotateLeft]
      exact if_congr eq_comm rfl rfl
    · simp [notAnswered_advance (notAnswered_setW s ..)]
  · exact raisesRoundIndex_of_exec hp (exec_expand_of_illegal (by omega) s)

end Sys2Proof.Machine
end

section
namespace Sys2Proof.Machine

/-! ### `UNPACK`, `ROUND` and `FEED` one by one (42_rounds.md R141 to R150) -/

theorem notAnswered_setVars (s : State) (a b c d e : Word) : NotAnswered s (s.setVars a b c d e) := by
  constructor <;> rfl

theorem notAnswered_feedForward (s : State) : NotAnswered s s.feedForward := by
  constructor <;> rfl

theorem NotAnswered.jump {s m : State} (h : NotAnswered s m) (q : Seq) (n : BitVec 7) : NotAnswered s (m.jump q n) :=
  ⟨h.responses, h.program, h.turns, h.draws⟩

theorem NotAnswered.setPhase {s m : State} (h : NotAnswered s m) (p : Phase) : NotAnswered s (m.setPhase p) :=
  ⟨h.responses, h.program, h.turns, h.draws⟩

/-- Settles O21: `UNPACK` is one `setVars` and one `jump`, whose fields are known. -/
theorem unpackCopiesTheState : Obligations.UnpackCopiesTheState := fun s =>
  ⟨_, rfl, by simp [(notAnswered_setVars s ..).jump]⟩

theorem add32_pair (x y : Word) : add32 [x, y] = x + y := by rw [add32_cons, add32_singleton]

/-- R111, R150: the feed-forward sums are additions of words. -/
theorem State.feedForward_H_eq_add (s : State) :
    s.feedForward.H = #v[s.H[0] + s.A, s.H[1] + s.B, s.H[2] + s.C, s.H[3] + s.D, s.H[4] + s.E] := by
  simp only [State.feedForward, add32_pair]

/-- Settles O23: the sums, then the end of the block, which writes control state only. -/
theorem feedAddsIntoTheState : Obligations.FeedAddsIntoTheState := fun s =>
  ⟨_, rfl, s.feedForward_H_eq_add, by simp [((notAnswered_feedForward s).setPhase _).jump]⟩

/-- R142: a round at a legal index, for any selector and constant. -/
theorem exists_roundEffect (f : Word → Word → Word → Word) (k : Word) {t : BitVec 7} (ht : t.toNat ≤ 79) (s : State) :
    ∃ u, roundWith f k t s = .next u ∧ RoundEffect s u t (f s.B s.C s.D) k := by
  refine ⟨_, roundWith_next f k t s ht, ?_⟩
  constructor
  case A => exact ⟨by omega, by simp [add32_toNat, rotl_eq_rotateLeft, Nat.add_assoc]⟩
  case C => simp [rotl_eq_rotateLeft]
  case pc => exact pcAfter_advance t .feed (by simp)
  case host => exact notAnswered_advance (notAnswered_setVars ..) t .feed
  all_goals simp

theorem roundWith_of_gt (f : Word → Word → Word → Word) (k : Word) {t : BitVec 7} (ht : 79 < t.toNat) (s : State) :
    roundWith f k t s = .next (s.raise .eRoundIndex) := dif_neg (by omega)

/-- Settles O22: the four instructions are one round with their band's selector and constant. -/
theorem roundOfEachBand : Obligations.RoundOfEachBand :=
  ⟨fun s _ h => exists_roundEffect ch kCh (by omega) s, fun s _ _ h => exists_roundEffect parity kPar1 (by omega) s,
    fun s _ _ h => exists_roundEffect maj kMaj (by omega) s, fun s _ _ h => exists_roundEffect parity kPar2 h s,
    fun s _ hp ht => ⟨raisesRoundIndex_of_exec hp (roundWith_of_gt ch kCh ht s),
      raisesRoundIndex_of_exec hp (roundWith_of_gt parity kPar1 ht s),
      raisesRoundIndex_of_exec hp (roundWith_of_gt maj kMaj ht s),
      raisesRoundIndex_of_exec hp (roundWith_of_gt parity kPar2 ht s)⟩⟩

end Sys2Proof.Machine
end

section
namespace Sys2Proof.Machine

/-! ### Where the engine is in a block (42_rounds.md R152) -/

/-- `W[0..n-1]` hold the schedule of the block `X` (R133). -/
def HoldsSchedule (X : Vector Word 16) (W : Vector Word 80) (n : Nat) : Prop :=
  ∀ i (h : i < 80), i < n → W[i] = scheduleWord X i

/-- The working registers as the working variables of R151. -/
def State.vars (s : State) : Vars := ⟨s.A, s.B, s.C, s.D, s.E⟩

/-- The state `k` micro-operations into the block `X` from the chaining state `S`: 64 `EXPAND`, one `UNPACK`, 80 `ROUND`, and
`FEED` still to come. -/
inductive BlockStage (S : Vector Word 5) (X : Vector Word 16) (s : State) : Nat → Prop where
  | expand (n : Nat) (hn : n < 64) (hq : s.seq = .expand) (ht : s.t.toNat = 16 + n) (hW : HoldsSchedule X s.W (16 + n)) :
      BlockStage S X s n
  | unpack (hq : s.seq = .unpack) (ht : s.t = 0#7) (hW : HoldsSchedule X s.W 80) : BlockStage S X s 64
  | round (n : Nat) (hn : n < 80) (hq : s.seq = .round) (ht : s.t.toNat = n) (hW : HoldsSchedule X s.W 80)
      (hv : s.vars = varsAfter S X n) : BlockStage S X s (65 + n)
  | feed (hq : s.seq = .feed) (ht : s.t = 0#7) (hW : HoldsSchedule X s.W 80) (hv : s.vars = varsAfter S X 80) :
      BlockStage S X s 145

/-! #### The schedule -/

/-- R131, R133: what `LOADBLK` copies is the start of the schedule. -/
theorem holdsSchedule_loadBlock (s : State) : HoldsSchedule s.M s.loadBlock.W 16 := by
  intro i h h16
  simp [h16, scheduleWord_lt]

/-- R132, R133: where `EXPAND` reads words of the schedule, its result is the next one. -/
theorem State.expanded_eq_scheduleWord {X : Vector Word 16} {s : State} {t : Nat} (hW : HoldsSchedule X s.W t)
    (ht : 16 ≤ t ∧ t ≤ 79) : s.expanded t ht = scheduleWord X t := by
  rw [State.expanded, hW (t - 3) (by omega) (by omega), hW (t - 8) (by omega) (by omega),
    hW (t - 14) (by omega) (by omega), hW (t - 16) (by omega) (by omega), scheduleWord_ge X t ht.1 (by omega)]

theorem HoldsSchedule.set {X : Vector Word 16} {W : Vector Word 80} {n : Nat} (hW : HoldsSchedule X W n) (hn : n < 80) :
    HoldsSchedule X (W.set n (scheduleWord X n) hn) (n + 1) := by
  intro i h hi
  by_cases e : n = i
  · simp [e]
  · rw [Vector.getElem_set_ne _ _ e]
    exact hW i h (by omega)

/-! #### The engine's step at each stage -/

theorem engineEffect_of_engineStep {s u : State} (h : engineStep s = .next u) : EngineEffect s u := by
  obtain ⟨v, e, ef⟩ := engineStep_total s
  cases e.symm.trans h
  exact ef

/-- R132, R133: an `EXPAND` adds one word to the schedule, and then the counted end. -/
theorem engineStep_of_expand {X : Vector Word 16} {s : State} (hq : s.seq = .expand) (ht : 16 ≤ s.t.toNat ∧ s.t.toNat ≤ 79)
    (hW : HoldsSchedule X s.W s.t.toNat) :
    ∃ m : State, engineStep s = .next (m.advance s.t .unpack) ∧ HoldsSchedule X m.W (s.t.toNat + 1) ∧ m.seq = .expand := by
  refine ⟨s.setW s.t.toNat (by omega) (s.expanded s.t.toNat ht), ?_, ?_, hq⟩
  · rw [engineStep, hq, select, if_pos ((indexIn_iff ..).2 ht)]
    exact exec_expand_of_legal ht s
  · rw [State.setW_W, State.expanded_eq_scheduleWord hW]
    exact hW.set _

theorem engineStep_of_unpack {s : State} (hq : s.seq = .unpack) (ht : s.t = 0#7) :
    engineStep s = .next ((s.setVars s.H[0] s.H[1] s.H[2] s.H[3] s.H[4]).jump .round 0#7) := by
  rw [engineStep, hq, select, if_pos ht]
  rfl

theorem engineStep_of_feed {s : State} (hq : s.seq = .feed) (ht : s.t = 0#7) :
    engineStep s = .next ((s.feedForward.setPhase .accum).jump .idle 0#7) := by
  rw [engineStep, hq, select, if_pos ht]
  rfl

/-- R142, R151: a `ROUND` is the round of `Compress`, and then the counted end. -/
theorem engineStep_of_round {s : State} (hq : s.seq = .round) (ht : s.t.toNat ≤ 79) :
    ∃ m : State, engineStep s = .next (m.advance s.t .feed) ∧ m.vars = roundVars s.t.toNat s.W[s.t.toNat] s.vars ∧
      m.W = s.W ∧ m.seq = .round := by
  obtain ⟨u, e, he⟩ := engineStep_total s
  cases he with
  | round _ _ f k hf hk => exact ⟨_, e, by simp only [roundVars, State.vars, hf, hk]; rfl, rfl, hq⟩
  | badIndex hb => exact absurd hb (not_badIndex_of_legalPc (by simp [State.legalPc, hq, indexIn, ht]))
  | idle g => simp [hq] at g
  | expand g => simp [hq] at g
  | unpack g => simp [hq] at g
  | feed g => simp [hq] at g

/-! #### From one stage to the next -/

section
variable {S : Vector Word 5} {X : Vector Word 16} {s : State}

/-- R132: 64 times, the last of them to `UNPACK`. -/
theorem exists_stage_of_expand {n : Nat} (hn : n < 64) (hq : s.seq = .expand) (ht : s.t.toNat = 16 + n)
    (hW : HoldsSchedule X s.W (16 + n)) : ∃ u, engineStep s = .next u ∧ BlockStage S X u (n + 1) := by
  obtain ⟨m, step, schedule, seq⟩ := engineStep_of_expand hq (by omega) (ht ▸ hW)
  rw [ht] at schedule
  refine ⟨_, step, ?_⟩
  rcases advance_cases m s.t .unpack with ⟨hlt, e⟩ | ⟨hge, e⟩
  · rw [e]
    exact .expand (n + 1) (by omega) seq ((toNat_add_one hlt).trans (by omega)) schedule
  · obtain rfl : n = 63 := by omega
    rw [e]
    exact .unpack rfl rfl schedule

/-- R141: the working variables start as the chaining state. -/
theorem exists_stage_of_unpack (hH : s.H = S) (hq : s.seq = .unpack) (ht : s.t = 0#7) (hW : HoldsSchedule X s.W 80) :
    ∃ u, engineStep s = .next u ∧ BlockStage S X u 65 :=
  ⟨_, engineStep_of_unpack hq ht, .round 0 (by decide) rfl rfl hW (by rw [← hH]; rfl)⟩

/-- R142: 80 times, the last of them to `FEED`. -/
theorem exists_stage_of_round {n : Nat} (hn : n < 80) (hq : s.seq = .round) (ht : s.t.toNat = n)
    (hW : HoldsSchedule X s.W 80) (hv : s.vars = varsAfter S X n) :
    ∃ u, engineStep s = .next u ∧ BlockStage S X u (65 + (n + 1)) := by
  subst ht
  obtain ⟨m, step, vars, W, seq⟩ := engineStep_of_round hq (by omega)
  have hv' : m.vars = varsAfter S X (s.t.toNat + 1) := by rw [vars, hW _ hn hn, hv]; rfl
  refine ⟨_, step, ?_⟩
  rcases advance_cases m s.t .feed with ⟨hlt, e⟩ | ⟨hge, e⟩
  · rw [e]
    exact .round _ (by omega) seq (toNat_add_one hlt) (W ▸ hW) hv'
  · have last : s.t.toNat = 79 := by omega
    rw [e]
    rw [last] at hv' ⊢
    exact .feed rfl rfl (W ▸ hW) hv'

theorem BlockStage.legalPc {k : Nat} (h : BlockStage S X s k) : s.legalPc = true := by
  cases h with
  | expand _ hn hq ht => simp only [State.legalPc, hq, indexIn_iff]; omega
  | unpack hq ht => simp [State.legalPc, hq, ht]
  | round _ hn hq ht => simp only [State.legalPc, hq, indexIn_iff]; omega
  | feed hq ht => simp [State.legalPc, hq, ht]

theorem BlockStage.seq_ne_idle {k : Nat} (h : BlockStage S X s k) : s.seq ≠ .idle := by
  cases h <;> simp [*]

/-- The stage speaks of registers only. -/
theorem BlockStage.of_sameRegs {m : State} {k : Nat} (h : BlockStage S X s k) (r : SameRegs s m) : BlockStage S X m k := by
  have vars : m.vars = s.vars := by simp only [State.vars, r.A, r.B, r.C, r.D, r.E]
  cases h with
  | expand _ hn hq ht hW => exact .expand _ hn (r.seq.trans hq) (r.t ▸ ht) (r.W ▸ hW)
  | unpack hq ht hW => exact .unpack (r.seq.trans hq) (r.t.trans ht) (r.W ▸ hW)
  | round n hn hq ht hW hv => exact .round n hn (r.seq.trans hq) (r.t ▸ ht) (r.W ▸ hW) (vars.trans hv)
  | feed hq ht hW hv => exact .feed (r.seq.trans hq) (r.t.trans ht) (r.W ▸ hW) (vars.trans hv)

end

/-! ### The block as a whole (R152) -/

/-- The engine is `k` micro-operations into the block that an accepted `NEXT` in `b` began (R152, "during those steps"). -/
structure InBlock (b : State) (k : Nat) (s : State) : Prop where
  stage : BlockStage b.H b.M s k
  H : s.H = b.H
  M : s.M = b.M
  MV : s.MV = 0#16
  phase : s.phase = b.phase
  err : s.err = b.err
  faultLog : s.faultLog = b.faultLog

/-- The engine has done the block that an accepted `NEXT` in `b` began (R152). -/
structure BlockDone (b s : State) : Prop where
  H : s.H = compress b.H b.M
  seq : s.seq = .idle
  t : s.t = 0#7
  phase : s.phase = .accum
  MV : s.MV = 0#16
  M : s.M = b.M
  err : s.err = b.err
  faultLog : s.faultLog = b.faultLog
  W : HoldsSchedule b.M s.W 80

/-- The engine answers no transaction. -/
theorem EngineEffect.notAnswered {s u : State} (h : EngineEffect s u) : NotAnswered s u := by
  cases h <;> constructor <;> simp

/-- The engine writes neither `M` nor `MV` (R25, R26). -/
theorem EngineEffect.block {s u : State} (h : EngineEffect s u) : u.M = s.M ∧ u.MV = s.MV := by
  cases h <;> simp

/-- At a legal program counter the engine leaves `err` alone (R36 item 3). -/
theorem EngineEffect.err {s u : State} (h : EngineEffect s u) (hpc : s.legalPc = true) : u.err = s.err := by
  cases h with
  | badIndex hb => exact absurd hb (not_badIndex_of_legalPc hpc)
  | _ => simp

namespace InBlock
variable {b s : State} {k : Nat} (h : InBlock b k s)
include h

theorem of_sameRegs {m : State} (r : SameRegs s m) : InBlock b k m where
  stage := h.stage.of_sameRegs r
  H := r.H.trans h.H
  M := r.M.trans h.M
  MV := r.MV.trans h.MV
  phase := r.phase.trans h.phase
  err := r.err.trans h.err
  faultLog := r.faultLog.trans h.faultLog

/-- A micro-operation other than `FEED` writes `W`, the working registers and the program counter only. -/
theorem succ {u : State} (e : engineStep s = .next u) (hf : s.seq ≠ .feed) (hu : BlockStage b.H b.M u (k + 1)) :
    InBlock b (k + 1) u := by
  have he := engineEffect_of_engineStep e
  have hpc := h.stage.legalPc
  exact {
    stage := hu
    H := (he.H.resolve_right hf).trans h.H
    M := he.block.1.trans h.M
    MV := he.block.2.trans h.MV
    phase := ((he.phase hpc).resolve_right fun g => hf g.1).trans h.phase
    err := (he.err hpc).trans h.err
    faultLog := (he.faultLog hpc).trans h.faultLog }

/-- R150, R151: after the last round `FEED` makes `H` the value of `Compress`. -/
theorem done_of_feed (hW : HoldsSchedule b.M s.W 80) (hv : s.vars = varsAfter b.H b.M 80) :
    BlockDone b ((s.feedForward.setPhase .accum).jump .idle 0#7) where
  H := by rw [compress_of_vars hv, ← h.H]; rfl
  seq := rfl
  t := rfl
  phase := rfl
  MV := h.MV
  M := h.M
  err := h.err
  faultLog := h.faultLog
  W := hW

/-- R152: one engine step further into the block, or, with the 146th, through it. -/
theorem engineStep_cases :
    (k < 145 ∧ ∃ u, engineStep s = .next u ∧ InBlock b (k + 1) u) ∨
    (k = 145 ∧ ∃ u, engineStep s = .next u ∧ BlockDone b u) := by
  cases h.stage with
  | expand n hn hq ht hW =>
    obtain ⟨u, e, hu⟩ := exists_stage_of_expand hn hq ht hW
    exact .inl ⟨by omega, u, e, h.succ e (by simp [hq]) hu⟩
  | unpack hq ht hW =>
    obtain ⟨u, e, hu⟩ := exists_stage_of_unpack h.H hq ht hW
    exact .inl ⟨by omega, u, e, h.succ e (by simp [hq]) hu⟩
  | round n hn hq ht hW hv =>
    obtain ⟨u, e, hu⟩ := exists_stage_of_round hn hq ht hW hv
    exact .inl ⟨by omega, u, e, h.succ e (by simp [hq]) hu⟩
  | feed hq ht hW hv => exact .inr ⟨rfl, _, engineStep_of_feed hq ht, h.done_of_feed hW hv⟩

theorem busy : s.busy = true := bne_iff_ne.2 h.stage.seq_ne_idle

theorem blkFull : s.blkFull = false := by simp [State.blkFull, h.MV]

end InBlock

/-- R162: `NEXT` with its checks met. -/
theorem exec_next_of_ready {s : State} (hx : s.phase ≠ .fault) (hf : s.phase ≠ .final) (hq : s.seq = .idle)
    (hm : s.MV = 0xFFFF#16) : exec .next s = .next ((s.loadBlock.jump .expand 16#7).respond true false 0#32) := by
  simp [exec, execNext, hx, hf, hq, hm]

/-- R131: the accepted `NEXT` puts the engine at the start of the block. -/
theorem inBlock_of_next {b s : State} (r : SameRegs b s) :
    InBlock b 0 ((s.loadBlock.jump .expand 16#7).respond true false 0#32) where
  stage := .expand 0 (by decide) rfl rfl (r.M ▸ holdsSchedule_loadBlock s)
  H := r.H
  M := r.M
  MV := rfl
  phase := r.phase
  err := r.err
  faultLog := r.faultLog

/-! ### With no host item left: exactly 146 steps -/

theorem NotAnswered.refl (s : State) : NotAnswered s s := ⟨rfl, rfl, rfl, rfl⟩

theorem NotAnswered.trans {a b c : State} (h : NotAnswered a b) (g : NotAnswered b c) : NotAnswered a c :=
  ⟨g.responses.trans h.responses, g.program.trans h.program, g.turns.trans h.turns, g.draws.trans h.draws⟩

/-- Where the host has nothing to do, one more step is one more engine step. -/
theorem run_succ_of_engineStep {s v w : State} {k : Nat} (hp : s.program = []) (hr : run k s = .next v)
    (hn : NotAnswered s v) (e : engineStep v = .next w) : run (k + 1) s = .next w ∧ NotAnswered s w := by
  have step : step v = .next w := (step_of_no_program (hn.program.trans hp)).trans e
  exact ⟨run_add k 1 hr (run_one step), hn.trans (engineEffect_of_engineStep e).notAnswered⟩

theorem InBlock.run {b s : State} (h : InBlock b 0 s) (hp : s.program = []) {k : Nat} (hk : k < 146) :
    ∃ v, Machine.run k s = .next v ∧ InBlock b k v ∧ NotAnswered s v := by
  induction k with
  | zero => exact ⟨s, rfl, h, .refl s⟩
  | succ k ih =>
    obtain ⟨v, hr, hv, hn⟩ := ih (by omega)
    rcases hv.engineStep_cases with ⟨-, w, e, hw⟩ | ⟨rfl, -⟩
    · obtain ⟨hr', hn'⟩ := run_succ_of_engineStep hp hr hn e
      exact ⟨w, hr', hw, hn'⟩
    · omega

/-- R152: through the block. -/
theorem InBlock.run_done {b s : State} (h : InBlock b 0 s) (hp : s.program = []) :
    ∃ v, Machine.run 146 s = .next v ∧ BlockDone b v ∧ NotAnswered s v := by
  obtain ⟨v, hr, hv, hn⟩ := h.run hp (k := 145) (by decide)
  rcases hv.engineStep_cases with ⟨hlt, -⟩ | ⟨-, w, e, hw⟩
  · omega
  · obtain ⟨hr', hn'⟩ := run_succ_of_engineStep hp hr hn e
    exact ⟨w, hr', hw, hn'⟩

/-- Settles O45: `InBlock` holds of the first 146 states, `BlockDone` of the one after the last step. -/
theorem blockTakes146Steps : Obligations.BlockTakes146Steps := by
  intro s hx hf hq hm hp
  have start := inBlock_of_next (SameButSchedule.refl s).toSameRegs
  refine ⟨_, exec_next_of_ready hx hf hq hm, fun k hk => ?_, ?_⟩
  · obtain ⟨v, hr, hv, -⟩ := start.run hp hk
    exact ⟨v, hr, hv.H, hv.busy, hv.blkFull, hv.phase, hv.M⟩
  · obtain ⟨v, hr, hv, hn⟩ := start.run_done hp
    exact ⟨v, hr, hv.H, hv.seq, hv.t, hv.phase, hv.MV, hv.M, hv.err, hv.faultLog, hn, fun t h => hv.W t h h⟩

end Sys2Proof.Machine
end

section
namespace Sys2Proof.Machine

/-! ### While the host polls (43_commands.md R167, 70_reset_and_hazards.md R246) -/

/-- Some number of steps lead from `s` to `v`; the program is as before, and each answer on the way is a `STATUS` of `d`. -/
def PollsTo (d : Word) (s v : State) : Prop :=
  v.program = s.program ∧
    ∃ n k, run n s = .next v ∧ v.responses = s.responses ++ List.replicate k ⟨false, false, d⟩

theorem PollsTo.refl (d : Word) (s : State) : PollsTo d s s := ⟨rfl, 0, 0, rfl, by simp⟩

theorem PollsTo.trans {d : Word} {s v w : State} (h : PollsTo d s v) (g : PollsTo d v w) : PollsTo d s w := by
  obtain ⟨hp, n, k, hr, ha⟩ := h
  obtain ⟨gp, m, j, gr, ga⟩ := g
  exact ⟨gp.trans hp, n + m, k + j, run_add n m hr gr, by rw [ga, ha, List.append_assoc, List.replicate_append_replicate]⟩

theorem pollsTo_of_poll {s m : State} {d : Word} (hm : SameButSchedule s m) (hp : m.program = s.program)
    (h : step s = .next (m.respond false false d)) : PollsTo d s (m.respond false false d) :=
  ⟨hp, 1, 1, run_one h, by rw [State.respond_responses, hm.responses]; rfl⟩

theorem pollsTo_of_engineStep {s m u : State} (d : Word) (hm : SameButSchedule s m) (hp : m.program = s.program)
    (h : step s = .next u) (he : NotAnswered m u) : PollsTo d s u :=
  ⟨he.program.trans hp, 1, 0, run_one h, by rw [he.responses, hm.responses]; simp⟩

/-- What `STATUS` reads during the block that a `NEXT` in `b` began: `BUSY` is 1, `BLKFULL` is 0 and the phase is still that of `b` (R85, R152). -/
def State.pollWord (b : State) : Word := (b.err ++ 0#2 ++ b.phase.bits ++ 0#2 ++ 0#1 ++ 1#1).setWidth 32

theorem State.pollWord_eq {b : State} (he : b.err = 0#4) (hx : b.phase ≠ .fault) (hf : b.phase ≠ .final) :
    b.pollWord = if b.phase = .empty then 0x00000001#32 else 0x00000011#32 := by
  rw [State.pollWord, he]
  cases hp : b.phase with
  | empty | accum => decide
  | final => exact absurd hp hf
  | fault => exact absurd hp hx

theorem InBlock.statusWord {b s : State} {k : Nat} (h : InBlock b k s) : s.statusWord = b.pollWord := by
  rw [State.statusWord, h.err, h.phase, h.blkFull, h.busy]
  rfl

theorem BlockDone.statusWord {b s : State} (h : BlockDone b s) (he : b.err = 0#4) : s.statusWord = 0x00000010#32 := by
  simp [State.statusWord, State.busy, State.blkFull, h.err, he, h.phase, h.seq, h.MV, Phase.bits]

section
variable {b s : State} {k : Nat} {rest : List HostItem} (h : InBlock b k s) (hp : s.program = .wait :: rest)
include h hp

/-- R91: where the host goes, the poll reads the busy word and `WAIT` stays. -/
theorem InBlock.step_poll (ht : s.turn ≠ 0) : step s = .next (s.hostTurn.respond false false b.pollWord) := by
  have hb : InBlock b k s.hostTurn := h.of_sameRegs (sameButSchedule_hostTurn s).toSameRegs
  rw [((stepRunsWaitAndReset s rest).1 hp).2 h.stage.seq_ne_idle ht, exec_rdstat, hb.statusWord]

/-- R160: the polls until it is the engine's turn, by induction on the host's turns. -/
theorem InBlock.poll : ∃ v, PollsTo b.pollWord s v ∧ InBlock b k v ∧ v.turn = 0 := by
  induction hn : s.turn generalizing s with
  | zero => exact ⟨s, .refl _ s, h, hn⟩
  | succ n ih =>
    have hm := sameButSchedule_hostTurn s
    have turn : s.hostTurn.turn = n := by rw [s.hostTurn_turn, hn, Nat.add_sub_cancel]
    have polled := pollsTo_of_poll hm s.hostTurn_program (h.step_poll hp (by omega))
    obtain ⟨v, hv, hk, ht⟩ :=
      ih ((h.of_sameRegs hm.toSameRegs).of_sameRegs (sameRegs_respond ..)) (polled.1.trans hp) turn
    exact ⟨v, polled.trans hv, hk, ht⟩

/-- R160: where it is the engine's turn, its step is taken. -/
theorem InBlock.pollsTo_of_turn {u : State} (ht : s.turn = 0) (e : engineStep s.engineTurn = .next u) :
    PollsTo b.pollWord s u :=
  pollsTo_of_engineStep _ (sameButSchedule_engineTurn s) s.engineTurn_program
    ((step_of_engine_turn (by simp [hp]) h.stage.seq_ne_idle ht).trans e) (engineEffect_of_engineStep e).notAnswered

/-- R152, R160: after some polls the block is one micro-operation further, or done. -/
theorem InBlock.poll_microOp :
    (k < 145 ∧ ∃ u, PollsTo b.pollWord s u ∧ InBlock b (k + 1) u) ∨
    (k = 145 ∧ ∃ u, PollsTo b.pollWord s u ∧ BlockDone b u) := by
  obtain ⟨v, hv, hk, ht⟩ := h.poll hp
  have polls {u : State} (e : engineStep v.engineTurn = .next u) : PollsTo b.pollWord s u :=
    hv.trans (hk.pollsTo_of_turn (hv.1.trans hp) ht e)
  rcases (hk.of_sameRegs (sameButSchedule_engineTurn v).toSameRegs).engineStep_cases with
    ⟨hlt, u, e, hu⟩ | ⟨heq, u, e, hu⟩
  · exact .inl ⟨hlt, u, polls e, hu⟩
  · exact .inr ⟨heq, u, polls e, hu⟩

/-- R152, R246: in every schedule the block is done in the end, by induction on the micro-operations still to come. -/
theorem InBlock.poll_done : ∃ v, PollsTo b.pollWord s v ∧ BlockDone b v := by
  induction hn : 145 - k generalizing s k with
  | zero =>
    rcases h.poll_microOp hp with ⟨hlt, -⟩ | ⟨-, done⟩
    · omega
    · exact done
  | succ n ih =>
    rcases h.poll_microOp hp with ⟨-, u, hu, hb⟩ | ⟨heq, -⟩
    · obtain ⟨v, hv, hd⟩ := ih hb (hu.1.trans hp) (by omega)
      exact ⟨v, hu.trans hv, hd⟩
    · omega

end

/-! ### `NEXT`, then `WAIT` -/

theorem hostStep_txn {s : State} {w : BitVec 40} {rest : List HostItem} (hp : s.program = .txn w :: rest) :
    hostStep s = runVerdict (twWe w) (decodeTW w) { s with program := rest } := by
  simp [hostStep, hp, State.consume, remaining]

/-- R162: the step that takes an accepted `NEXT` off the program. -/
theorem step_next_of_ready {s : State} {rest : List HostItem} (hp : s.program = nextItem :: rest) (hx : s.phase ≠ .fault)
    (hf : s.phase ≠ .final) (hq : s.seq = .idle) (hm : s.MV = 0xFFFF#16) :
    ∃ u, step s = .next u ∧ InBlock s 0 u ∧ u.program = rest ∧ u.responses = s.responses ++ [⟨true, false, 0#32⟩] := by
  have decoded : decodeTW (mkTW true 0x00#6 2#32) = .instr .next := by decide
  refine ⟨(State.jump { s with program := rest }.loadBlock .expand 16#7).respond true false 0#32, ?_,
    inBlock_of_next (by constructor <;> rfl), rfl, rfl⟩
  rw [step_of_idle (by simp [hp]) hq, hostStep_txn hp, decoded]
  exact exec_next_of_ready hx hf hq hm

/-- R91, R167: the poll after the block reads phase `ACCUM` with every other field 0, and ends `WAIT`. -/
theorem BlockDone.step_wait {b s : State} {rest : List HostItem} (h : BlockDone b s) (he : b.err = 0#4)
    (hp : s.program = .wait :: rest) :
    step s = .next (State.respond { s with program := rest } false false 0x00000010#32) := by
  rw [((stepRunsWaitAndReset s rest).1 hp).1 h.seq, exec_rdstat, ← h.statusWord he]
  rfl

/-- Settles O46: `NEXT` is accepted, the polls go on until the block is done, and the next one ends `WAIT`. -/
theorem nextThenWait : Obligations.NextThenWait := by
  intro s rest hs hx hf hq hm hp
  have he := hs.err_eq_zero hx
  obtain ⟨u, next, hb, up, ua⟩ := step_next_of_ready hp hx hf hq hm
  obtain ⟨v, ⟨vp, n, k, polls, va⟩, hd⟩ := hb.poll_done up
  have last := hd.step_wait he (vp.trans up)
  refine ⟨_, k, _, run_add 1 _ (run_one next) (run_add n 1 polls (run_one last)), rfl, hd.seq, hd.phase, hd.H, hd.MV,
    hd.faultLog, ?_⟩
  rw [State.respond_responses, va, ua, State.pollWord_eq he hx hf]

end Sys2Proof.Machine
end

section
namespace Sys2Proof.Machine

/-! ### The step is the agent's instruction (43_commands.md R160) -/

theorem step_txn_of_idle {s : State} {w : BitVec 40} {rest : List HostItem} (hp : s.program = .txn w :: rest)
    (hq : s.seq = .idle) : step s = runVerdict (twWe w) (decodeTW w) { s with program := rest } := by
  rw [step_of_idle (by simp [hp]) hq, hostStep_txn hp]

theorem step_txn_of_host_turn {s : State} {w : BitVec 40} {rest : List HostItem} (hp : s.program = .txn w :: rest)
    (hq : s.seq ≠ .idle) (ht : s.turn ≠ 0) :
    step s = runVerdict (twWe w) (decodeTW w) { s.hostTurn with program := rest } := by
  rw [step_of_host_turn (by simp [hp]) hq ht, hostStep_txn (s.hostTurn_program.trans hp)]

/-- R52: the word of an instruction runs that instruction. -/
theorem runVerdict_of_decodeTW {w : BitVec 40} {i : Instr} (hd : decodeTW w = .instr i) (we : Bool) (s : State) :
    runVerdict we (decodeTW w) s = exec i s := by
  rw [hd]
  rfl

/-- Settles O7: either way the host's step is the head word's, on `s` or on `s` with its turn counted down. -/
theorem stepRunsHostTransaction : Obligations.StepRunsHostTransaction := by
  intro s w rest hp
  refine ⟨step_txn_of_idle hp, step_txn_of_host_turn hp, fun i hd => ⟨fun hq => ?_, fun hq ht => ?_⟩⟩
  · rw [step_txn_of_idle hp hq, runVerdict_of_decodeTW hd]
  · rw [step_txn_of_host_turn hp hq ht, runVerdict_of_decodeTW hd]

theorem engineStep_of_select {s : State} {i : Instr} (h : select s.seq s.t = .instr i) : engineStep s = exec i s := by
  rw [engineStep, h]
  rfl

/-- R86: an idle engine has no micro-operation. -/
theorem seq_ne_idle_of_select {q : Seq} {t : BitVec 7} {i : Instr} (h : select q t = .instr i) : q ≠ .idle := by
  rintro rfl
  cases h

/-- Settles O9: using up the engine's turn leaves `(seq, t)` alone, so the same micro-operation is selected after it. -/
theorem stepRunsMicroOperation : Obligations.StepRunsMicroOperation := by
  intro s i h
  have sel : select s.seq s.t = .instr i := by
    rw [decodeSW_sw] at h
    exact SeqVerdict.selects.inj h
  refine ⟨fun hp => ?_, fun hp ht => ?_⟩
  · rw [step_of_no_program hp, engineStep_of_select sel]
  · rw [step_of_engine_turn hp (seq_ne_idle_of_select sel) ht]
    exact engineStep_of_select (by simpa using sel)

/-! ### Phase `FAULT` (43_commands.md R170) -/

/-- A transaction in phase `FAULT`: `INIT`, `RDSTAT`, or a refusal. -/
theorem TxnEffect.eq_refuse_of_fault {s u : State} {w : BitVec 40} (h : TxnEffect s w u) (hx : s.phase = .fault)
    (hi : decodeTW w ≠ .instr .init) (hr : decodeTW w ≠ .instr .rdstat) : u = s.refuse (twWe w) := by
  cases h with
  | refused => rfl
  | init hd => exact absurd hd hi
  | rdstat hd => exact absurd hd hr
  | next hd hp => exact absurd hx hp
  | final hd hq hp => simp [hx] at hp
  | wrblk i d hd hp => exact absurd hx hp
  | rddig i hd hp => simp [hx] at hp
  | faulted c hc hp => exact absurd hx hp

theorem runVerdict_of_fault {s : State} {w : BitVec 40} (hx : s.phase = .fault) (hz : twZ w = false)
    (hi : decodeTW w ≠ .instr .init) (hr : decodeTW w ≠ .instr .rdstat) :
    runVerdict (twWe w) (decodeTW w) s = .next (s.refuse (twWe w)) := by
  rcases txn_total s w with ⟨u, e, he⟩ | ⟨e, -⟩
  · rw [e, he.eq_refuse_of_fault hx hi hr]
  · exact absurd e (runVerdict_ne_refused hz _)

/-- Settles O33: what is left in phase `FAULT` is the refusal, which writes the answer only. -/
theorem faultPhaseRefuses : Obligations.FaultPhaseRefuses := fun s _ hx hz hi hr =>
  ⟨_, runVerdict_of_fault hx hz hi hr, sameRegs_respond .., answered_respond s ..⟩

/-- Every host instruction has a transaction word. -/
theorem exists_decodeTW_of_host {i : Instr} (ha : i.agent = .host) : ∃ w, decodeTW w = .instr i := by
  obtain ⟨w, he⟩ : ∃ w, encode i = .tw w := by
    cases i with
    | init | next | final | wrblk i d | rdstat | rddig0 | rddig1 | rddig2 | rddig3 | rddig4 => exact ⟨_, rfl⟩
    | expand t | unpack | roundCh t | roundPar1 t | roundMaj t | roundPar2 t | feed => cases ha
  have hd := decodeOfEncode i (Instr.wf_of_agent_host ha)
  rw [he] at hd
  exact ⟨w, TxnVerdict.toInstr_eq_some_iff.1 hd⟩

/-- A host instruction, in any state, is the transaction of its own word. -/
theorem exists_txnEffect_of_host {i : Instr} (ha : i.agent = .host) (s : State) :
    ∃ w u, decodeTW w = .instr i ∧ exec i s = .next u ∧ TxnEffect s w u := by
  obtain ⟨w, hd⟩ := exists_decodeTW_of_host ha
  rcases txn_total s w with ⟨u, e, he⟩ | ⟨-, hz⟩
  · exact ⟨w, u, hd, (runVerdict_of_decodeTW hd _ s).symm.trans e, he⟩
  · cases (decodeTW_eq_notTransaction_iff.2 hz).symm.trans hd

/-- R170, for an instruction by itself. -/
theorem refusesInFault_of_host {s : State} {i : Instr} (hx : s.phase = .fault) (ha : i.agent = .host) (hi : i ≠ .init)
    (hr : i ≠ .rdstat) : RefusesInFault s i := by
  obtain ⟨w, u, hd, e, he⟩ := exists_txnEffect_of_host ha s
  rw [he.eq_refuse_of_fault hx (by simp [hd, hi]) (by simp [hd, hr])] at e
  exact ⟨_, _, e, sameRegs_respond .., answered_respond s ..⟩

end Sys2Proof.Machine
end

section
namespace Sys2Proof.Machine

/-! ### The dispatch procedure (43_commands.md R169) -/

theorem mkTW_inj {we we' : Bool} {a a' : BitVec 6} {d d' : Word} :
    mkTW we a d = mkTW we' a' d' ↔ we = we' ∧ a = a' ∧ d = d' := by
  refine ⟨fun h => ⟨?_, ?_, ?_⟩, ?_⟩
  · simpa using congrArg twWe h
  · simpa using congrArg twAddr h
  · simpa using congrArg twWdata h
  · rintro ⟨rfl, rfl, rfl⟩
    rfl

/-- R82 over the port's fields: a request is a host instruction when the fields are those of the instruction's word, a
read's `wdata` left out. -/
theorem decodeRequest_eq_instr_iff {we we' : Bool} {a a' : BitVec 6} {d d' : Word} {i : Instr} (ha : i.agent = .host)
    (he : encode i = .tw (mkTW we' a' d')) :
    decodeRequest we a d = .instr i ↔ we = we' ∧ a = a' ∧ (if we then d else 0#32) = d' := by
  rw [← decodeTW_mkTW, decodeTW_eq_instr_iff, canonicalTW_mkTW, he, and_iff_right ha, CodeWord.tw.injEq, eq_comm, mkTW_inj]

theorem decodeRequest_eq_rdstat_iff {we : Bool} {a : BitVec 6} {d : Word} :
    decodeRequest we a d = .instr .rdstat ↔ we = false ∧ a = 0x01#6 := by
  rw [decodeRequest_eq_instr_iff rfl rfl]
  cases we <;> simp

theorem decodeRequest_eq_init_iff {we : Bool} {a : BitVec 6} {d : Word} :
    decodeRequest we a d = .instr .init ↔ we = true ∧ a = 0x00#6 ∧ d = 1#32 := by
  rw [decodeRequest_eq_instr_iff rfl rfl]
  cases we <;> simp

/-- R169, step 1: phase `FAULT`. -/
theorem runVerdict_eq_portTransaction_of_fault {s : State} {w : BitVec 40} (hx : s.phase = .fault) (hz : twZ w = false) :
    runVerdict (twWe w) (decodeTW w) s = portTransaction (twWe w) (twAddr w) (twWdata w) s := by
  have rdstat := decodeTW_eq_iff (w := w) (v := .instr .rdstat) (by simp)
  have init := decodeTW_eq_iff (w := w) (v := .instr .init) (by simp)
  rw [decodeRequest_eq_rdstat_iff] at rdstat
  rw [decodeRequest_eq_init_iff] at init
  rw [portTransaction, if_pos hx]
  split
  · next h => exact runVerdict_of_decodeTW (rdstat.2 ⟨hz, h⟩) ..
  split
  · next h => exact runVerdict_of_decodeTW (init.2 ⟨hz, h⟩) ..
  · next hr hi => exact runVerdict_of_fault hx hz (fun h => hi (init.1 h).2) (fun h => hr (rdstat.1 h).2)

theorem illegalTxn_of_phase_ne_fault {s : State} (hx : s.phase ≠ .fault) (we : Bool) (c : FaultCode) :
    illegalTxn we c s = .next (s.raiseTxn we c) := if_neg hx

theorem eq_wrblk_addr : ∀ a : BitVec 6, 0x10 ≤ a.toNat ∧ a.toNat ≤ 0x1F → a = 1#2 ++ BitVec.ofNat 4 (a.toNat - 0x10) := by
  decide

theorem eq_rddig_addr : ∀ a : BitVec 6, 0x20 ≤ a.toNat ∧ a.toNat ≤ 0x24 → a = BitVec.ofNat 6 (0x20 + (a.toNat - 0x20)) := by
  decide

/-- R169, step 4: what the steps before leave is a legal transaction or a write of `CTRL`. -/
theorem runVerdict_eq_portLegal {s : State} {we : Bool} {a : BitVec 6} (hx : s.phase ≠ .fault)
    (addr : ¬((0x02 ≤ a.toNat ∧ a.toNat ≤ 0x0F) ∨ (0x25 ≤ a.toNat ∧ a.toNat ≤ 0x3F)))
    (read : ¬(we = false ∧ (a = 0x00#6 ∨ (0x10 ≤ a.toNat ∧ a.toNat ≤ 0x1F))))
    (write : ¬(we = true ∧ (a = 0x01#6 ∨ (0x20 ≤ a.toNat ∧ a.toNat ≤ 0x24)))) (d : Word) :
    runVerdict we (decodeRequest we a d) s = portLegal we a d s := by
  unfold portLegal
  split
  · next h => rw [decodeRequest_eq_rdstat_iff.2 h]; rfl
  split
  · next h =>
    obtain ⟨rfl, ha⟩ := h
    have decoded := decodeRequest_rddig ⟨a.toNat - 0x20, by omega⟩ d
    rw [← eq_rddig_addr a ha] at decoded
    rw [decoded]
    exact exec_rddig _ s
  split
  · next h =>
    obtain ⟨rfl, ha⟩ := h
    have decoded := decodeRequest_wrblk (BitVec.ofNat 4 (a.toNat - 0x10)) d
    rw [← eq_wrblk_addr a ha] at decoded
    rw [decoded]
    rfl
  next h₁ h₂ h₃ =>
  have ctrl : we = true ∧ a = 0x00#6 := by
    simp only [BitVec.toNat_eq, BitVec.reduceToNat] at h₁ read write ⊢
    cases we with
    | false => simp only [true_and] at h₁ h₂ read; omega
    | true => simp only [true_and] at h₃ write ⊢; omega
  obtain ⟨rfl, rfl⟩ := ctrl
  change runVerdict true (decodeCommand d) s = _
  rcases decodeCommand_cases d with ⟨rfl, e⟩ | ⟨rfl, e⟩ | ⟨rfl, e⟩ | ⟨⟨h1, h2, h3⟩, e⟩
  · rw [e]; rfl
  · rw [e]; rfl
  · rw [e]; rfl
  · rw [e, if_neg h1, if_neg h2, if_neg h3]
    exact illegalTxn_of_phase_ne_fault hx ..

/-- R169, steps 2 to 4, in the order of the checks. -/
theorem runVerdict_eq_portTransaction_of_ne_fault {s : State} (hx : s.phase ≠ .fault) (we : Bool) (a : BitVec 6) (d : Word) :
    runVerdict we (decodeRequest we a d) s = portTransaction we a d s := by
  have address := decodeRequest_eq_illegalAddress_iff (we := we) (a := a) (d := d)
  have direction := decodeRequest_eq_illegalDirection_iff (we := we) (a := a) (d := d)
  simp only [BitVec.le_def, BitVec.reduceToNat] at address direction
  rw [portTransaction, if_neg hx]
  split
  · next h => rw [address.2 h]; exact illegalTxn_of_phase_ne_fault hx ..
  split
  · next h => rw [direction.2 (.inl h)]; exact illegalTxn_of_phase_ne_fault hx ..
  split
  · next h => rw [direction.2 (.inr h)]; exact illegalTxn_of_phase_ne_fault hx ..
  · next h₁ h₂ h₃ => exact runVerdict_eq_portLegal hx h₁ h₂ h₃ d

/-- Settles O12: the same checks in the same order, in phase `FAULT` and outside it. -/
theorem dispatchFollowsProcedure : Obligations.DispatchFollowsProcedure := by
  intro s w hz
  by_cases hx : s.phase = .fault
  · exact runVerdict_eq_portTransaction_of_fault hx hz
  · have decoded : decodeTW w = decodeRequest (twWe w) (twAddr w) (twWdata w) := if_neg (Bool.eq_false_iff.1 hz)
    rw [decoded]
    exact runVerdict_eq_portTransaction_of_ne_fault hx ..

end Sys2Proof.Machine
end

section
namespace Sys2Proof.Machine

/-! ### The host's commands one by one (43_commands.md R161 to R166) -/

/-- An update of registers, then the answer. -/
theorem NotAnswered.respond {s m : State} (h : NotAnswered s m) (we err : Bool) (d : Word) :
    Answered s (m.respond we err d) we err d where
  responses := by rw [State.respond_responses, h.responses]
  program := h.program
  turns := h.turns
  draws := h.draws

theorem notAnswered_loadIV (s : State) : NotAnswered s s.loadIV := by
  constructor <;> rfl

theorem notAnswered_loadBlock (s : State) : NotAnswered s s.loadBlock := by
  constructor <;> rfl

theorem notAnswered_writeBlock (s : State) (i : BitVec 4) (d : Word) : NotAnswered s (s.writeBlock i d) := by
  constructor <;> rfl

/-- R161: `STATUS` reads 0 after `INIT`. -/
theorem State.loadIV_statusWord (s : State) : s.loadIV.statusWord = 0#32 := by
  simp [State.statusWord, State.busy, State.blkFull, Phase.bits]

/-- Settles O13: `INIT` writes the registers of `loadIV` and answers; the refusals are those of phase `FAULT`. -/
theorem initLoadsIV : Obligations.InitLoadsIV := by
  refine ⟨by decide, fun s => ⟨_, rfl, rfl, rfl, rfl, rfl, rfl, rfl, rfl, rfl, rfl, rfl, rfl, rfl, rfl, rfl,
    (notAnswered_loadIV s).respond .., s.loadIV_statusWord, fun hx => ⟨?_, ?_⟩⟩⟩
  · exact refusesInFault_of_host hx rfl (by simp) (by simp)
  · exact refusesInFault_of_host hx rfl (by simp) (by simp)

/-- R220: `NEXT`, `FINAL` and `WRBLK` check for a busy engine before anything else of the state. -/
theorem raisesFault_of_busy {s : State} {i : Instr} (hi : i = .next ∨ i = .final ∨ ∃ k d, i = .wrblk k d)
    (hx : s.phase ≠ .fault) (hq : s.seq ≠ .idle) : RaisesFault i s true .eBusy := by
  apply raisesFault_of_exec hx
  rcases hi with rfl | rfl | ⟨k, d, rfl⟩
  · simp [exec, execNext, hx, hq]
  · simp [exec, execFinal, hx, hq]
  · simp [exec, execWrblk, hx, hq]

theorem raisesFault_next_of_final {s : State} (hq : s.seq = .idle) (hf : s.phase = .final) :
    RaisesFault .next s true .ePhase :=
  raisesFault_of_exec (by simp [hf]) (by simp [exec, execNext, hf, hq])

theorem raisesFault_next_of_incomplete {s : State} (hx : s.phase ≠ .fault) (hq : s.seq = .idle) (hf : s.phase ≠ .final)
    (hm : s.MV ≠ 0xFFFF#16) : RaisesFault .next s true .eIncompleteBlock :=
  raisesFault_of_exec hx (by simp [exec, execNext, hx, hf, hq, hm])

/-- Settles O14: the accepted `NEXT` is `LOADBLK` and a jump; the faults in the order of the checks. -/
theorem nextStartsTheBlock : Obligations.NextStartsTheBlock := by
  refine ⟨by decide, fun s hx hq hf hm => ⟨_, exec_next_of_ready hx hf hq hm, fun i h => by simp, ?_⟩, fun s hx =>
    ⟨raisesFault_of_busy (.inl rfl) hx, raisesFault_next_of_final, raisesFault_next_of_incomplete hx⟩⟩
  exact ⟨rfl, rfl, rfl, rfl, rfl, rfl, rfl, rfl, rfl, rfl, rfl, rfl, rfl, ((notAnswered_loadBlock s).jump ..).respond .., rfl,
    rfl⟩

/-- R163: `FINAL` with its checks met. -/
theorem exec_final_of_accum {s : State} (hq : s.seq = .idle) (hp : s.phase = .accum) :
    exec .final s = .next ((s.setPhase .final).respond true false 0#32) := by
  simp [exec, execFinal, hq, hp]

theorem raisesFault_final_of_phase {s : State} (hx : s.phase ≠ .fault) (hq : s.seq = .idle) (hp : s.phase ≠ .accum) :
    RaisesFault .final s true .ePhase :=
  raisesFault_of_exec hx (by simp [exec, execFinal, hx, hq, hp])

/-- R21: no host instruction but `INIT` writes `H`. -/
theorem H_of_exec_host {s v : State} {i : Instr} (ha : i.agent = .host) (hi : i ≠ .init) (h : exec i s = .next v) :
    v.H = s.H := by
  obtain ⟨w, u, hd, e, he⟩ := exists_txnEffect_of_host ha s
  cases e.symm.trans h
  exact he.H.resolve_right (by simp [hd, hi])

/-- Settles O15: `FINAL` writes the phase, which opens the digest window; what it freezes only `INIT` can write. -/
theorem finalFreezesTheDigest : Obligations.FinalFreezesTheDigest := by
  refine ⟨by decide, fun s hq hp => ⟨_, exec_final_of_accum hq hp, rfl, rfl, rfl, rfl, rfl, rfl, rfl, rfl, rfl, rfl, rfl, rfl,
    rfl, rfl, ((NotAnswered.refl s).setPhase _).respond .., rfl, State.statusWord_phase _,
    fun i => ⟨_, exec_rddig_of_final rfl i, answered_respond ..⟩, fun i v => H_of_exec_host⟩, fun s hx =>
    ⟨raisesFault_of_busy (.inr (.inl rfl)) hx, raisesFault_final_of_phase hx⟩⟩

/-- R164: `WRBLK` with its checks met. -/
theorem exec_wrblk_of_ready {s : State} (hx : s.phase ≠ .fault) (hf : s.phase ≠ .final) (hq : s.seq = .idle) (i : BitVec 4)
    (d : Word) : exec (.wrblk i d) s = .next ((s.writeBlock i d).respond true false 0#32) := by
  simp [exec, execWrblk, hx, hf, hq]

theorem raisesFault_wrblk_of_final {s : State} (hq : s.seq = .idle) (hf : s.phase = .final) (i : BitVec 4) (d : Word) :
    RaisesFault (.wrblk i d) s true .ePhase :=
  raisesFault_of_exec (by simp [hf]) (by simp [exec, execWrblk, hf, hq])

/-- R164: the flag of the written word is set, the other fifteen stay. -/
theorem State.writeBlock_MV_getLsbD (s : State) (i : BitVec 4) (d : Word) (j : Nat) :
    (s.writeBlock i d).MV.getLsbD j = (s.MV.getLsbD j || j == i.toNat) := by
  rw [State.writeBlock_MV, BitVec.getLsbD_or, ← BitVec.twoPow_eq, BitVec.getLsbD_twoPow, decide_eq_true i.isLt, Bool.true_and]
  exact congrArg _ (decide_eq_decide.2 eq_comm)

/-- R85: `BLKFULL` is all sixteen flags. -/
theorem State.MV_eq_full {s : State} (h : ∀ j, j < 16 → s.MV.getLsbD j = true) : s.MV = 0xFFFF#16 :=
  BitVec.eq_of_getLsbD_eq fun j hj => (h j hj).trans (BitVec.getLsbD_allOnes.trans (decide_eq_true hj)).symm

/-- Settles O16: the accepted `WRBLK` is one `writeBlock`, whose flag completes the sixteen where it was the last. -/
theorem wrblkWritesOneWord : Obligations.WrblkWritesOneWord := by
  refine ⟨fun i d => ?_, fun s i d hx hq hf => ⟨_, exec_wrblk_of_ready hx hf hq i d, fun j h => ?_,
    fun j _ => s.writeBlock_MV_getLsbD i d j, ?_⟩,
    fun s i d hx => ⟨raisesFault_of_busy (.inr (.inr ⟨i, d, rfl⟩)) hx, fun hq hf => raisesFault_wrblk_of_final hq hf i d⟩⟩
  · rw [← mkTW_wrblk, decodeTW_mkTW, decodeRequest_wrblk]
  · rw [State.respond_M, State.writeBlock_M, Vector.getElem_set]
    exact if_congr eq_comm rfl rfl
  · refine ⟨rfl, rfl, rfl, rfl, rfl, rfl, rfl, rfl, rfl, rfl, rfl, rfl, (notAnswered_writeBlock s i d).respond .., fun others =>
      (State.blkFull_iff _).2 (State.MV_eq_full fun j hj => ?_)⟩
    rw [State.respond_MV, s.writeBlock_MV_getLsbD i d j]
    by_cases e : j = i.toNat
    · simp [e]
    · simp [others j hj e]

/-- R85: `BUSY` as the condition it shows. -/
theorem State.busy_eq_decide (s : State) : s.busy = decide (s.seq ≠ .idle) := by
  cases h : s.seq <;> simp [State.busy, h]

/-- Settles O17: `RDSTAT` only answers; the refusals are those of phase `FAULT`. -/
theorem rdstatReturnsTheStatus : Obligations.RdstatReturnsTheStatus := by
  refine ⟨by decide, fun s => ⟨_, exec_rdstat s, sameRegs_respond .., ?_, fun hx i => refusesInFault_of_host hx⟩⟩
  rw [← s.busy_eq_decide]
  exact answered_respond ..

/-- R166, R219: in phases `EMPTY` and `ACCUM` the digest window is closed. -/
theorem raisesFault_rddig {s : State} (hx : s.phase ≠ .fault) (hf : s.phase ≠ .final) (i : Fin 5) :
    RaisesFault (Instr.rddig i) s false .eNotFinal :=
  raisesFault_of_exec hx (by simp [exec_rddig, readDigest, hx, hf])

/-- Settles O18: the five rows are one read of `H`. -/
theorem rddigReturnsTheDigestWord : Obligations.RddigReturnsTheDigestWord := by
  refine ⟨by decide, fun s hf => ?_, fun s i hp => ?_⟩
  · have read (i : Fin 5) : ∃ u, exec (Instr.rddig i) s = .next u ∧ SameRegs s u ∧ Answered s u false false s.H[i] :=
      ⟨_, exec_rddig_of_final hf i, sameRegs_respond .., answered_respond ..⟩
    exact ⟨read 0, read 1, read 2, read 3, read 4⟩
  · rcases hp with hp | hp <;> exact raisesFault_rddig (by simp [hp]) (by simp [hp]) i

end Sys2Proof.Machine
end

section
namespace Sys2Proof.Machine

/-! ### The program counter (43_commands.md R168) -/

/-- The edges of the graph of R168 that the engine itself takes. -/
inductive EngineEdge (s u : State) : Prop where
  | expand (hq : s.seq = .expand) (h16 : 16 ≤ s.t.toNat) (h78 : s.t.toNat ≤ 78) (uq : u.seq = .expand) (ut : u.t = s.t + 1#7)
  | expanded (hq : s.seq = .expand) (ht : s.t = 79#7) (uq : u.seq = .unpack) (ut : u.t = 0#7)
  | unpack (hq : s.seq = .unpack) (uq : u.seq = .round) (ut : u.t = 0#7)
  | round (hq : s.seq = .round) (h78 : s.t.toNat ≤ 78) (uq : u.seq = .round) (ut : u.t = s.t + 1#7)
  | rounded (hq : s.seq = .round) (ht : s.t = 79#7) (uq : u.seq = .feed) (ut : u.t = 0#7)
  | feed (hq : s.seq = .feed) (uq : u.seq = .idle) (ut : u.t = 0#7)

theorem eq_79_of_toNat {t : BitVec 7} (hle : t.toNat ≤ 79) (hge : ¬t.toNat < 79) : t = 79#7 :=
  BitVec.eq_of_toNat_eq (by simp; omega)

/-- At a legal program counter a busy engine takes one of its edges. -/
theorem EngineEffect.edge {s u : State} (h : EngineEffect s u) (hpc : s.legalPc = true) (hq : s.seq ≠ .idle) :
    EngineEdge s u := by
  cases h with
  | idle g => exact absurd g hq
  | expand g ht =>
    rcases advance_cases (s.setW s.t.toNat (by omega) (s.expanded s.t.toNat ht)) s.t .unpack with ⟨hlt, e⟩ | ⟨hge, e⟩
    · rw [e]
      exact .expand g ht.1 (by omega) g rfl
    · rw [e]
      exact .expanded g (eq_79_of_toNat ht.2 hge) rfl rfl
  | unpack g => exact .unpack g rfl rfl
  | round g ht f k =>
    rcases advance_cases (s.setVars (add32 [rotl 5 s.A, f, s.E, k, s.W[s.t.toNat]]) s.A (rotl 30 s.B) s.C s.D) s.t .feed with
      ⟨hlt, e⟩ | ⟨hge, e⟩
    · rw [e]
      exact .round g (by omega) g rfl
    · rw [e]
      exact .rounded g (eq_79_of_toNat ht hge) rfl rfl
  | feed g => exact .feed g rfl rfl
  | badIndex hb => exact absurd hb (not_badIndex_of_legalPc hpc)

/-- What a transaction does to the program counter: `NEXT` starts the engine, `INIT` and a fault stop it. -/
theorem TxnEffect.pc {s u : State} {w : BitVec 40} (h : TxnEffect s w u) :
    (u.seq = s.seq ∧ u.t = s.t) ∨ (s.seq = .idle ∧ u.seq = .expand ∧ u.t = 16#7 ∧ decodeTW w = .instr .next) ∨
      (u.seq = .idle ∧ u.t = 0#7 ∧ (decodeTW w = .instr .init ∨ u.phase = .fault)) := by
  cases h with
  | init hd => exact .inr (.inr ⟨rfl, rfl, .inl hd⟩)
  | next hd hp hq => exact .inr (.inl ⟨hq, rfl, rfl, hd⟩)
  | faulted c => exact .inr (.inr ⟨rfl, rfl, .inr rfl⟩)
  | _ => exact .inl ⟨rfl, rfl⟩

/-- Settles O40: the engine's edges are its own, `NEXT` gives the one out of `IDLE`, and `INIT`, a fault and reset lead back. -/
theorem programCounterGraph : Obligations.ProgramCounterGraph := by
  intro s u hs h
  cases stepEffect_of_step h with
  | engine m u hm hp he =>
    by_cases hq : m.seq = .idle
    · rw [he.eq_of_idle hq]
      exact .inl ⟨hm.seq, hm.t⟩
    · have edge := he.edge ((legalPc_of_sameButSchedule hm).trans hs.pc) hq
      rw [← hm.seq, ← hm.t]
      cases edge <;> simp [*]
  | txn m u w rest hm hp hpm he =>
    rcases he.pc with ⟨uq, ut⟩ | ⟨hq, uq, ut, hd⟩ | ⟨uq, ut, cause⟩
    · exact .inl ⟨uq.trans hm.seq, ut.trans hm.t⟩
    · exact .inr (.inl ⟨hm.seq.symm.trans hq, uq, ut, w, rest, hp, hd⟩)
    · have cause' : s.headIs .init ∨ s.headIsReset ∨ u.phase = .fault :=
        cause.imp (fun hd => ⟨w, rest, hp, hd⟩) .inr
      simp [uq, ut, cause']
  | wait m rest hm => exact .inl ⟨hm.seq, hm.t⟩
  | reset m rest hm hp =>
    have cause : s.headIsReset := ⟨rest, hp⟩
    simp [cause]

/-! ### The engine's turn comes (43_commands.md R160) -/

/-- A transaction is answered once, and touches neither the program nor the schedule. -/
theorem TxnEffect.answered {s u : State} {w : BitVec 40} (h : TxnEffect s w u) : ∃ we err d, Answered s u we err d := by
  cases h <;> exact ⟨_, _, _, rfl, rfl, rfl, rfl⟩

/-- What a host step beside a busy engine leaves alone: nothing is added to the program, the schedule is as before, and the
pending micro-operation is the same unless the engine was stopped. -/
structure HostStepped (m v : State) : Prop where
  turns : v.turns = m.turns
  program : v.program ⊆ m.program
  pc : v.seq = .idle ∨ (v.seq = m.seq ∧ v.t = m.t)

theorem exists_hostStepped {m : State} (hq : m.seq ≠ .idle) (hz : ∀ w, HostItem.txn w ∈ m.program → w.getLsbD 38 = false)
    (hne : m.program ≠ []) : ∃ v, hostStep m = .next v ∧ HostStepped m v := by
  rcases hp : m.program with _ | ⟨it, rest⟩
  · exact absurd hp hne
  have sub : rest ⊆ m.program := by simp [hp]
  cases it with
  | txn w =>
    rw [hostStep_txn hp]
    rcases txn_total { m with program := rest } w with ⟨v, e, he⟩ | ⟨e, -⟩
    · obtain ⟨_, _, _, ha⟩ := he.answered
      refine ⟨v, e, ha.turns, ha.program ▸ sub, ?_⟩
      rcases he.pc with ⟨vq, vt⟩ | ⟨mq, -⟩ | ⟨vq, -⟩
      · exact .inr ⟨vq, vt⟩
      · exact absurd mq hq
      · exact .inl vq
    · exact absurd e (runVerdict_ne_refused (hz w (by simp [hp])) _)
  | wait =>
    rw [hostStep_wait hp, consume_wait_of_busy hp hq, exec_rdstat]
    exact ⟨_, rfl, rfl, List.Subset.refl _, .inr ⟨rfl, rfl⟩⟩
  | reset => exact ⟨_, hostStep_reset hp, rfl, sub, .inl rfl⟩

/-- A schedule fixed already does not depend on the draws. -/
theorem turn_eq_of_hostStepped {s v : State} (h : HostStepped s.hostTurn v) : v.turn = s.turn - 1 := by
  rw [← s.hostTurn_turn]
  have fixed : s.hostTurn.turns ≠ [] := by
    unfold State.hostTurn
    split <;> simp
  obtain ⟨n, rest, hn⟩ := List.exists_cons_of_ne_nil fixed
  simp [State.turn, h.turns, hn]

/-- Where it is the engine's turn, or the host has nothing to do, the engine's step is the next one. -/
theorem step_eq_engineStep {s : State} (hq : s.seq ≠ .idle) (h : s.program = [] ∨ s.turn = 0) :
    step s = engineStep (if s.program = [] then s else s.engineTurn) := by
  split
  · exact step_of_no_program ‹_›
  · exact step_of_engine_turn ‹_› hq (h.resolve_left ‹_›)

/-- Settles O44, by induction on the host's turns. -/
theorem engineStepIsEventuallyTaken : Obligations.EngineStepIsEventuallyTaken := by
  intro s hq hz
  induction hn : s.turn generalizing s with
  | zero => exact ⟨0, s, by simp, rfl, .inr ⟨rfl, rfl, step_eq_engineStep hq (.inr hn)⟩⟩
  | succ n ih =>
    by_cases hp : s.program = []
    · exact ⟨0, s, by simp, rfl, .inr ⟨rfl, rfl, step_eq_engineStep hq (.inl hp)⟩⟩
    obtain ⟨v, e, hv⟩ := exists_hostStepped (m := s.hostTurn) (by simpa using hq) (by simpa using hz) (by simpa using hp)
    have step := (step_of_host_turn hp hq (by omega)).trans e
    have program : v.program ⊆ s.program := by simpa using hv.program
    have pc : v.seq = .idle ∨ (v.seq = s.seq ∧ v.t = s.t) := by simpa using hv.pc
    by_cases vq : v.seq = .idle
    · exact ⟨1, v, by omega, run_one step, .inl vq⟩
    · obtain ⟨sameSeq, sameT⟩ := pc.resolve_left vq
      obtain ⟨k, u, hk, hr, hu⟩ := ih v vq (fun w hw => hz w (program hw)) (by rw [turn_eq_of_hostStepped hv]; omega)
      rw [sameSeq, sameT] at hu
      exact ⟨1 + k, u, by omega, run_add 1 k (run_one step) hr, hu⟩

end Sys2Proof.Machine
end

section
namespace Sys2Proof.Machine

/-! ### Stretches of a run without fault or error (43_commands.md R171) -/

/-- Some number of steps lead from `s` to `u`, with no fault entered and no error answered; `rs` are the answers on the way. -/
structure RunsTo (s u : State) (rs : List Response) : Prop where
  reached : ∃ n, run n s = .next u
  faultLog : u.faultLog = s.faultLog
  responses : u.responses = s.responses ++ rs
  noError : ∀ r ∈ rs, r.err = false

theorem RunsTo.refl (s : State) : RunsTo s s [] := ⟨⟨0, rfl⟩, rfl, by simp, by simp⟩

theorem RunsTo.trans {s u v : State} {rs qs : List Response} (h : RunsTo s u rs) (g : RunsTo u v qs) :
    RunsTo s v (rs ++ qs) := by
  obtain ⟨n, hr⟩ := h.reached
  obtain ⟨m, gr⟩ := g.reached
  exact {
    reached := ⟨n + m, run_add n m hr gr⟩
    faultLog := g.faultLog.trans h.faultLog
    responses := by rw [g.responses, h.responses, List.append_assoc]
    noError := fun r hr => (List.mem_append.1 hr).elim (h.noError r) (g.noError r) }

/-- A step that answers without error. -/
theorem runsTo_of_answer {s m : State} {we : Bool} {d : Word} (h : step s = .next (m.respond we false d))
    (hl : m.faultLog = s.faultLog) (ha : m.responses = s.responses) :
    RunsTo s (m.respond we false d) [⟨we, false, d⟩] :=
  ⟨⟨1, run_one h⟩, hl, by rw [State.respond_responses, ha], by simp⟩

theorem run_keeps_inv {n : Nat} {s u : State} (hs : s.Inv) (h : run n s = .next u) : u.Inv := by
  induction n generalizing s with
  | zero =>
    cases h
    exact hs
  | succ n ih =>
    rw [run_succ] at h
    cases e : step s with
    | next v => exact ih (stepKeepsInvariant s v hs e) (by rwa [e] at h)
    | fault r => nomatch r
    | refused r =>
      rw [e] at h
      cases h

theorem RunsTo.inv {s u : State} {rs : List Response} (h : RunsTo s u rs) (hs : s.Inv) : u.Inv := by
  obtain ⟨n, hr⟩ := h.reached
  exact run_keeps_inv hs hr

/-! ### `INIT` is reached, whatever the engine is doing (R161, R168) -/

/-- How many micro-operations the engine has before it at a legal program counter (R168). -/
def State.microOpsLeft (s : State) : Nat :=
  match s.seq with
  | .idle => 0
  | .expand => 82 + (80 - s.t.toNat)
  | .unpack => 82
  | .round => 1 + (80 - s.t.toNat)
  | .feed => 1

theorem EngineEdge.microOpsLeft {s u : State} (h : EngineEdge s u) : u.microOpsLeft < s.microOpsLeft := by
  cases h with
  | expand hq h16 h78 uq ut | round hq h78 uq ut =>
    have next : (s.t + 1#7).toNat = s.t.toNat + 1 := toNat_add_one (by omega)
    simp only [State.microOpsLeft, hq, uq, ut, next]
    omega
  | expanded hq ht uq | rounded hq ht uq => simp [State.microOpsLeft, hq, ht, uq]
  | unpack hq uq ut => simp [State.microOpsLeft, hq, uq, ut]
  | feed hq uq => simp [State.microOpsLeft, hq, uq]

/-- In every schedule the host's next step comes, by induction on the micro-operations still to come. -/
theorem exists_step_eq_hostStep {s : State} (hs : s.Inv) (hp : s.program ≠ []) :
    ∃ m v, RunsTo s m [] ∧ v.program = s.program ∧ SameButSchedule m v ∧ step m = hostStep v := by
  induction hk : s.microOpsLeft using Nat.strong_induction_on generalizing s with
  | _ k ih =>
    by_cases hq : s.seq = .idle
    · exact ⟨s, s, .refl s, rfl, .refl s, step_of_idle hp hq⟩
    by_cases ht : s.turn = 0
    · obtain ⟨u, e, he⟩ := engineStep_total s.engineTurn
      have hm := sameButSchedule_engineTurn s
      have step := (step_of_engine_turn hp hq ht).trans e
      have hpc := (legalPc_of_sameButSchedule hm).trans hs.pc
      have less : u.microOpsLeft < k := by
        rw [← hk]
        simpa [State.microOpsLeft] using (he.edge hpc (hm.seq ▸ hq)).microOpsLeft
      have program : u.program = s.program := he.notAnswered.program.trans s.engineTurn_program
      have runs : RunsTo s u [] := ⟨⟨1, run_one step⟩, (he.faultLog hpc).trans hm.faultLog,
        by rw [he.notAnswered.responses, hm.responses, List.append_nil], by simp⟩
      obtain ⟨m, v, hr, vp, hv, hstep⟩ := ih _ less (runs.inv hs) (program ▸ hp) rfl
      exact ⟨m, v, runs.trans hr, vp.trans program, hv, hstep⟩
    · exact ⟨s, s.hostTurn, .refl s, s.hostTurn_program, sameButSchedule_hostTurn s, step_of_host_turn hp hq ht⟩

/-! ### The parts of the driver script (44_host_framing.md R196) -/

/-- Before a block: the engine idles in phase `EMPTY` or `ACCUM` with the chaining state `S`. -/
structure BeforeBlock (S : Vector Word 5) (s : State) : Prop where
  inv : s.Inv
  notFault : s.phase ≠ .fault
  notFinal : s.phase ≠ .final
  seq : s.seq = .idle
  H : s.H = S

/-- R161: from every good state, busy, final or faulted too, `INIT` starts a message. -/
theorem runsTo_init {s : State} {rest : List HostItem} (hs : s.Inv) (hp : s.program = initItem :: rest) :
    ∃ u rs, RunsTo s u rs ∧ BeforeBlock iv u ∧ u.program = rest := by
  obtain ⟨m, v, hr, vp, hv, hstep⟩ := exists_step_eq_hostStep hs (by simp [hp])
  have decoded : decodeTW (mkTW true 0x00#6 1#32) = .instr .init := by decide
  have step : step m = .next (State.respond { v with program := rest }.loadIV true false 0#32) := by
    rw [hstep, hostStep_txn (vp.trans hp), decoded]
    rfl
  refine ⟨_, _, hr.trans (runsTo_of_answer step hv.faultLog hv.responses), ?_, rfl⟩
  exact ⟨State.inv_of_empty rfl rfl rfl rfl rfl, by simp, by simp, rfl, rfl⟩

/-- R164: the block word `i` is written, with its flag. -/
def State.holdsWord (s : State) (X : Vector Word 16) (i : Fin 16) : Prop :=
  s.M[i] = X[i] ∧ s.MV.getLsbD i = true

/-- Writing a word of the block leaves the others as they are. -/
theorem State.holdsWord_writeBlock {s : State} {X : Vector Word 16} {i j : Fin 16} (h : j = i ∨ s.holdsWord X j) :
    (s.writeBlock (BitVec.ofNat 4 i) X[i]).holdsWord X j := by
  by_cases e : j = i
  · subst e
    simp [State.holdsWord, BitVec.getLsbD_eq_getElem]
  · obtain ⟨hM, hMV⟩ := h.resolve_left e
    have ne : i.val ≠ j.val := fun g => e (Fin.ext g.symm)
    exact ⟨by simpa [Vector.getElem_set, ne] using hM, by rw [State.writeBlock_MV_getLsbD, hMV, Bool.true_or]⟩

/-- R164: one block word, between two blocks. -/
theorem step_wrblk_of_ready {s : State} {X : Vector Word 16} {i : Fin 16} {rest : List HostItem}
    (hx : s.phase ≠ .fault) (hf : s.phase ≠ .final) (hq : s.seq = .idle)
    (hp : s.program = wrblkItem i.val X[i] :: rest) :
    step s = .next ((State.writeBlock { s with program := rest } (BitVec.ofNat 4 i) X[i]).respond true false 0#32) := by
  rw [step_txn_of_idle hp hq, wrblk_addr (Nat.le_of_lt_succ i.isLt), decodeTW_mkTW, decodeRequest_wrblk]
  exact exec_wrblk_of_ready (s := { s with program := rest }) hx hf hq ..

/-- R91: the block words of the indices `l`, one after the other. -/
theorem BeforeBlock.runsTo_writes {S : Vector Word 5} {X : Vector Word 16} {rest : List HostItem} {l : List (Fin 16)}
    {s : State} (h : BeforeBlock S s) (hp : s.program = l.map (fun i => wrblkItem i.val X[i]) ++ rest) :
    ∃ u rs, RunsTo s u rs ∧ BeforeBlock S u ∧ u.program = rest ∧ ∀ i, i ∈ l ∨ s.holdsWord X i → u.holdsWord X i := by
  induction l generalizing s with
  | nil => exact ⟨s, _, .refl s, h, hp, fun i hi => hi.resolve_left (by simp)⟩
  | cons i l ih =>
    have step := step_wrblk_of_ready h.notFault h.notFinal h.seq hp
    have first := runsTo_of_answer step rfl rfl
    obtain ⟨u, rs, hr, hu, up, words⟩ := ih ⟨first.inv h.inv, h.notFault, h.notFinal, h.seq, h.H⟩ rfl
    refine ⟨u, _, first.trans hr, hu, up, fun j hj => words j ?_⟩
    rw [List.mem_cons, or_assoc, or_left_comm] at hj
    exact hj.imp id State.holdsWord_writeBlock

/-- A block whose sixteen words are written is full. -/
theorem State.block_of_holdsWord {s : State} {X : Vector Word 16} (h : ∀ i, s.holdsWord X i) :
    s.M = X ∧ s.MV = 0xFFFF#16 :=
  ⟨Vector.ext fun i hi => (h ⟨i, hi⟩).1, State.MV_eq_full fun i hi => (h ⟨i, hi⟩).2⟩

/-- R91, R152: `HASHBLK X` takes the chaining state `S` to `Compress(S, X)`. -/
theorem BeforeBlock.runsTo_hashblk {S : Vector Word 5} {X : Vector Word 16} {rest : List HostItem} {s : State}
    (h : BeforeBlock S s) (hp : s.program = hashblkItems X ++ rest) :
    ∃ u rs, RunsTo s u rs ∧ BeforeBlock (compress S X) u ∧ u.phase = .accum ∧ u.program = rest := by
  obtain ⟨m, qs, hr, hm, mp, words⟩ := h.runsTo_writes (l := List.finRange 16) (rest := nextItem :: .wait :: rest) (by
    rw [hp, hashblkItems, List.append_assoc]
    rfl)
  obtain ⟨hM, hMV⟩ := State.block_of_holdsWord fun i => words i (.inl (List.mem_finRange i))
  obtain ⟨n, k, u, run, up, uq, uph, uH, -, ul, ua⟩ := nextThenWait m rest hm.inv hm.notFault hm.notFinal hm.seq hMV mp
  rw [List.append_assoc, List.append_assoc] at ua
  have block : RunsTo m u _ := ⟨⟨n, run⟩, ul, ua, by simp +contextual [or_imp]⟩
  rw [hm.H, hM] at uH
  exact ⟨u, _, hr.trans block, ⟨block.inv hm.inv, by simp [uph], by simp [uph], uq, uH⟩, uph, up⟩

/-- R172: the blocks of a message, by induction on the blocks. -/
theorem BeforeBlock.runsTo_blocks {S : Vector Word 5} {Xs : List (Vector Word 16)} {rest : List HostItem} {s : State}
    (h : BeforeBlock S s) (hne : Xs ≠ [] ∨ s.phase = .accum) (hp : s.program = Xs.flatMap hashblkItems ++ rest) :
    ∃ u rs, RunsTo s u rs ∧ BeforeBlock (Xs.foldl compress S) u ∧ u.phase = .accum ∧ u.program = rest := by
  induction Xs generalizing S s with
  | nil => exact ⟨s, _, .refl s, h, hne.resolve_left (by simp), hp⟩
  | cons X Xs ih =>
    rw [List.flatMap_cons, List.append_assoc] at hp
    obtain ⟨m, qs, hr, hm, mph, mp⟩ := h.runsTo_hashblk hp
    obtain ⟨u, rs, ur, hu, uph, up⟩ := ih hm (.inr mph) mp
    exact ⟨u, _, hr.trans ur, hu, uph, up⟩

/-- R163: the step that takes an accepted `FINAL` off the program. -/
theorem step_final_of_accum {s : State} {rest : List HostItem} (hq : s.seq = .idle) (hph : s.phase = .accum)
    (hp : s.program = finalItem :: rest) :
    step s = .next ((State.setPhase { s with program := rest } .final).respond true false 0#32) := by
  have decoded : decodeTW (mkTW true 0x00#6 3#32) = .instr .final := by decide
  rw [step_txn_of_idle hp hq, decoded]
  exact exec_final_of_accum hq hph

/-- R166: the step that takes a `RDDIG` off the program in phase `FINAL`. -/
theorem step_rddig_of_final {s : State} {i : Fin 5} {rest : List HostItem} (hq : s.seq = .idle) (hph : s.phase = .final)
    (hp : s.program = rddigItem i.val :: rest) :
    step s = .next (State.respond { s with program := rest } false false s.H[i]) := by
  have decoded : decodeTW (mkTW false (BitVec.ofNat 6 (0x20 + i.val)) 0#32) = .instr (Instr.rddig i) :=
    (decodeTW_mkTW ..).trans (decodeRequest_rddig i _)
  rw [step_txn_of_idle hp hq, decoded]
  exact exec_rddig_of_final (s := { s with program := rest }) hph i

/-- R91: the digest words of the indices `l`, one after the other. -/
theorem runsTo_reads {l : List (Fin 5)} {s : State} (hq : s.seq = .idle) (hph : s.phase = .final)
    (hp : s.program = l.map fun i => rddigItem i.val) :
    ∃ u, RunsTo s u (l.map fun i => ⟨false, false, s.H[i]⟩) ∧ u.ended ∧ u.phase = .final := by
  induction l generalizing s with
  | nil => exact ⟨s, .refl s, ⟨hp, hq⟩, hph⟩
  | cons i l ih =>
    have step := step_rddig_of_final hq hph hp
    have first := runsTo_of_answer step rfl rfl
    obtain ⟨u, hr, hu⟩ := ih (s := State.respond { s with program := l.map fun i => rddigItem i.val } false false s.H[i])
      hq hph rfl
    exact ⟨u, first.trans hr, hu⟩

/-- R91, R166: `DIGEST` answers the five words of `H`, `H[0]` first. -/
theorem runsTo_digest {s : State} (hq : s.seq = .idle) (hph : s.phase = .final) (hp : s.program = digestItems) :
    ∃ u, RunsTo s u (s.H.toList.map fun h => ⟨false, false, h⟩) ∧ u.ended ∧ u.phase = .final := by
  have words : s.H.toList = (List.finRange 5).map fun i => s.H[i] := by
    rw [← List.ofFn_eq_map, ← Vector.toList_ofFn]
    exact congrArg Vector.toList Vector.ofFn_getElem.symm
  rw [words, List.map_map]
  exact runsTo_reads hq hph hp

/-- R172: the driver script, from every good state and in every schedule. -/
theorem runsTo_driverScript {s : State} {Xs : List (Vector Word 16)} (hs : s.Inv) (hne : Xs ≠ [])
    (hp : s.program = driverScript Xs) :
    ∃ u rs, RunsTo s u (rs ++ (hashBlocks Xs).toList.map fun h => ⟨false, false, h⟩) ∧ u.ended ∧ u.phase = .final := by
  obtain ⟨a, _, init, ha, ap⟩ := runsTo_init hs hp
  obtain ⟨b, _, blocks, hb, bph, bp⟩ := ha.runsTo_blocks (.inl hne) ap
  have final := runsTo_of_answer (step_final_of_accum hb.seq bph bp) rfl rfl
  obtain ⟨u, reads, ended, phase⟩ := runsTo_digest
    (s := (State.setPhase { b with program := digestItems } .final).respond true false 0#32) hb.seq rfl rfl
  have digest : b.H = hashBlocks Xs := hb.H
  exact ⟨u, _, digest ▸ ((init.trans blocks).trans final).trans reads, ended, phase⟩

/-- Settles O47: what the script answers before the digest is without error, as the digest itself is. -/
theorem wholeMessageDigest : Obligations.WholeMessageDigest := by
  intro s X Xs hs hp
  obtain ⟨u, rs, ⟨⟨n, run⟩, log, answers, good⟩, ended, phase⟩ := runsTo_driverScript hs (by simp) hp
  refine ⟨n, u, rs, run, ended, phase, log, by rw [answers, List.append_assoc], fun r hr => good r (by simp [hr]), fun none => ?_⟩
  rw [none, List.nil_append] at answers
  exact ⟨ended, by simp [phase], answers ▸ good⟩

/-! ### The blocks of a message (44_host_framing.md R193, R195) -/

theorem exists_wordsOfBytes {n : Nat} {p : List Byte} (h : p.length = 4 * n) :
    ∃ ws, wordsOfBytes p = .ok ws ∧ ws.length = n := by
  induction n generalizing p with
  | zero =>
    obtain rfl := List.length_eq_zero_iff.1 h
    exact ⟨[], rfl, rfl⟩
  | succ n ih =>
    match p, h with
    | a :: b :: c :: d :: rest, h =>
      obtain ⟨ws, e, len⟩ := ih (p := rest) (by simpa [Nat.mul_succ] using h)
      exact ⟨packWord a b c d :: ws, by simp [wordsOfBytes, e], by simp [len]⟩

theorem exists_parseBlocks {n : Nat} {p : List Byte} (h : p.length = 64 * n) :
    ∃ Xs, parseBlocks p = .ok Xs ∧ Xs.length = n := by
  obtain ⟨ws, e, len⟩ := exists_wordsOfBytes (n := 16 * n) (p := p) (by omega)
  exact ⟨blocksOfWords ws, by simp [parseBlocks, h, e], by simp [blocksOfWords, len]⟩

/-- R193: a message within the limit is padded to whole blocks, at least one. -/
theorem exists_pad {m : List Byte} (h : m.length < 2 ^ 61) :
    ∃ p, pad m = .ok p ∧ p.length = 64 * blockCount m.length :=
  ⟨_, if_pos h, by simp [zeroCount, blockCount, be64]; omega⟩

theorem exists_messageBlocks {m : List Byte} (h : m.length < 2 ^ 61) :
    ∃ Xs, messageBlocks m = .ok Xs ∧ Xs ≠ [] := by
  obtain ⟨p, hp, len⟩ := exists_pad h
  obtain ⟨Xs, hXs, count⟩ := exists_parseBlocks len
  refine ⟨Xs, by simp [messageBlocks, hp, hXs], List.ne_nil_of_length_pos ?_⟩
  rw [count, blockCount]
  omega

/-- Settles O48: the framing gives at least one block, and `SHA1(m)` is the fold over the blocks. -/
theorem engineComputesTheReferenceDigest : Obligations.EngineComputesTheReferenceDigest := by
  intro m h
  obtain ⟨Xs, hXs, hne⟩ := exists_messageBlocks h
  refine ⟨Xs, hashBlocks Xs, hXs, by simp [sha1, hXs], fun s hs hp => ?_⟩
  obtain ⟨u, rs, ⟨⟨n, run⟩, -, answers, good⟩, ended, phase⟩ := runsTo_driverScript hs hne hp
  exact ⟨n, u, rs, run, ended, by simp [phase], by rw [answers, List.append_assoc], fun r hr => good r (by simp [hr])⟩

end Sys2Proof.Machine
end

section
namespace Sys2Proof.Machine

/-! ### ByteSource (44_host_framing.md R191, R192) -/

theorem bytesOfUnits_of_le {us : List Nat} (h : ∀ c ∈ us, c ≤ 255) :
    bytesOfUnits us = .ok (us.map (BitVec.ofNat 8)) := by
  induction us with
  | nil => rfl
  | cons c cs ih =>
    obtain ⟨hc, hcs⟩ := List.forall_mem_cons.1 h
    simp [bytesOfUnits, hc, ih hcs]

theorem bytesOfUnits_of_exists_gt {us : List Nat} (h : ∃ c ∈ us, 255 < c) :
    bytesOfUnits us = .error .byteOutOfRange := by
  induction us with
  | nil => simp at h
  | cons c cs ih =>
    by_cases hc : c ≤ 255
    · simp [bytesOfUnits, hc, ih (by simpa [Nat.not_lt.2 hc] using h)]
    · simp [bytesOfUnits, hc]

/-- The bytes of a text are the ones whose values are the code units. -/
theorem bytesOfUnits_eq_ok_iff {us : List Nat} {bs : List Byte} :
    bytesOfUnits us = .ok bs ↔ bs.map BitVec.toNat = us := by
  constructor
  · intro h
    have le : ∀ c ∈ us, c ≤ 255 := fun c hc => by
      by_contra gt
      simp [bytesOfUnits_of_exists_gt ⟨c, hc, by omega⟩] at h
    obtain rfl : us.map (BitVec.ofNat 8) = bs := by simpa [bytesOfUnits_of_le le] using h
    rw [List.map_map]
    exact (List.map_congr_left fun c hc => Nat.mod_eq_of_lt (Nat.lt_succ_of_le (le c hc))).trans us.map_id
  · rintro rfl
    have le : ∀ c ∈ bs.map BitVec.toNat, c ≤ 255 := fun c hc => by
      obtain ⟨b, -, rfl⟩ := List.mem_map.1 hc
      omega
    rw [bytesOfUnits_of_le le, List.map_map]
    simp [Function.comp_def]

theorem bytesOfUnits_eq_error_iff {us : List Nat} :
    bytesOfUnits us = .error .byteOutOfRange ↔ ∃ c ∈ us, 255 < c := by
  refine ⟨fun h => ?_, bytesOfUnits_of_exists_gt⟩
  by_contra none
  simp [bytesOfUnits_of_le (us := us) (by simpa using none)] at h

/-- Settles O54: a text is its bytes' values, or holds a code unit above 255. -/
theorem byteSourceIsOneBytePerUnit : Obligations.ByteSourceIsOneBytePerUnit :=
  ⟨fun _ _ => bytesOfUnits_eq_ok_iff, fun _ => bytesOfUnits_eq_error_iff, rfl⟩

/-! ### Padder (44_host_framing.md R193, R194, R200) -/

theorem zeroCount_le (L : Nat) : zeroCount L ≤ 63 := by
  unfold zeroCount blockCount
  omega

/-- R193: the parts of the padded message fill the blocks. -/
theorem blockCount_mul (L : Nat) : 64 * blockCount L = L + 9 + zeroCount L := by
  unfold zeroCount blockCount
  omega

/-- R193: eight bytes, most significant first, carry every number below `2^64`. -/
theorem foldl_be64 {x : Nat} (h : x < 2 ^ 64) : (be64 x).foldl (fun acc b => acc * 256 + b.toNat) 0 = x := by
  simp only [be64, List.map_cons, List.map_nil, List.foldl_cons, List.foldl_nil, BitVec.toNat_ofNat]
  omega

theorem pad_of_lt {m : List Byte} (h : m.length < 2 ^ 61) :
    pad m = .ok (m ++ [0x80#8] ++ List.replicate (zeroCount m.length) 0x00#8 ++ be64 (8 * m.length)) :=
  (if_pos h).trans (by simp)

theorem pad_of_le {m : List Byte} (h : 2 ^ 61 ≤ m.length) : pad m = .error .messageTooLong := if_neg (Nat.not_lt.2 h)

/-- Settles O55: the parts are `pad`'s own; below `2^61` bytes the length in bits fits the eight bytes. -/
theorem paddingShape : Obligations.PaddingShape := by
  refine ⟨fun m h => ?_, fun m h => pad_of_le h⟩
  have blocks := blockCount_mul m.length
  exact ⟨blockCount m.length, zeroCount m.length, be64 (8 * m.length), by omega, zeroCount_le _, blocks, rfl, pad_of_lt h,
    foldl_be64 (by omega)⟩

/-! ### BlockParser (44_host_framing.md R195, 20_memory.md R58) -/

theorem toNat_append_byte {n : Nat} (x : BitVec n) (b : Byte) : (x ++ b).toNat = x.toNat * 2 ^ 8 + b.toNat := by
  rw [BitVec.toNat_append, ← Nat.shiftLeft_add_eq_or_of_lt b.isLt, Nat.shiftLeft_eq]

/-- R58: the first of the four bytes is the most significant. -/
theorem packWord_toNat (a b c d : Byte) :
    (packWord a b c d).toNat = a.toNat * 2 ^ 24 + b.toNat * 2 ^ 16 + c.toNat * 2 ^ 8 + d.toNat := by
  rw [packWord, toNat_append_byte, toNat_append_byte, toNat_append_byte]
  omega

/-- R195: word `j` is packed from the four bytes at `4j`. -/
theorem getD_of_wordsOfBytes {p : List Byte} {ws : List Word} (h : wordsOfBytes p = .ok ws) {j : Nat} (hj : j < ws.length) :
    ws.getD j 0#32 = packWord (p.getD (4 * j) 0) (p.getD (4 * j + 1) 0) (p.getD (4 * j + 2) 0) (p.getD (4 * j + 3) 0) := by
  fun_induction wordsOfBytes p generalizing ws j with
  | case1 => cases h; simp at hj
  | case2 a b c d rest vs hv ih =>
    cases h
    cases j with
    | zero => rfl
    | succ j =>
      exact ih hv (by simpa using hj)
  | case3 | case4 => cases h

@[simp] theorem blocksOfWords_length (ws : List Word) : (blocksOfWords ws).length = ws.length / 16 := by
  simp [blocksOfWords]

theorem blocksOfWords_getElem {ws : List Word} {k i : Nat} (hk : k < (blocksOfWords ws).length) (hi : i < 16) :
    (blocksOfWords ws)[k][i] = ws.getD (16 * k + i) 0#32 := by
  simp [blocksOfWords]

/-- Settles O56: word `i` of block `k` is word `16k + i` of the sequence, which is packed from the four bytes there. -/
theorem blockParserShape : Obligations.BlockParserShape := by
  refine fun p => ⟨fun whole => ?_, fun part => if_pos part⟩
  obtain ⟨ws, words, count⟩ := exists_wordsOfBytes (n := p.length / 4) (p := p) (by omega)
  refine ⟨blocksOfWords ws, by simp [parseBlocks, whole, words], by rw [blocksOfWords_length]; omega, fun k i hk hi => ?_⟩
  rw [blocksOfWords_length] at hk
  rw [blocksOfWords_getElem _ hi, getD_of_wordsOfBytes words (by omega), packWord_toNat,
    show 4 * (16 * k + i) = 64 * k + 4 * i by omega]

end Sys2Proof.Machine
end

section
namespace Sys2Proof.Machine

/-! ### The rendering (44_host_framing.md R197) -/

theorem hexDigit_eq_getElem? : ∀ n : Fin 16, ("0123456789abcdef".toList)[n.val]? = some (hexDigit n.val) := by decide

/-- Nibble `i` of a word is its hexadecimal digit at `16^i`. -/
theorem toNat_nibble (w : Word) (i : Nat) : (w.extractLsb' (4 * i) 4).toNat = w.toNat / 16 ^ i % 16 := by
  rw [BitVec.extractLsb'_toNat, Nat.shiftRight_eq_div_pow, Nat.pow_mul]

theorem renderWord_getElem? (w : Word) {j : Nat} (hj : j < 8) :
    (renderWord w)[j]? = some (hexDigit (w.toNat / 16 ^ (7 - j) % 16)) := by
  have digits : [7, 6, 5, 4, 3, 2, 1, 0] = (List.range 8).map (7 - ·) := rfl
  simp [renderWord, digits, hj]

/-- The five digest words one by one. -/
theorem toList_eq_words {α : Type} (d : Vector α 5) : d.toList = [d[0], d[1], d[2], d[3], d[4]] := by
  obtain ⟨⟨l⟩, h⟩ := d
  match l, h with
  | [_, _, _, _, _], _ => rfl

theorem renderWith_eq_intercalate (separator : List Char) (d : Vector Word 5) :
    renderWith separator d = List.intercalate separator (d.toList.map renderWord) := by
  simp [renderWith, toList_eq_words, List.intercalate]

/-- Settles O57: character `j` is the digit of the nibble at `16^(7-j)`; the example is a closed word. -/
theorem renderingIsExact : Obligations.RenderingIsExact := by
  refine ⟨fun w => ⟨rfl, fun j hj => ?_⟩, by decide, renderWith_eq_intercalate, fun _ => rfl⟩
  rw [renderWord_getElem? w hj, toNat_nibble]
  exact (hexDigit_eq_getElem? ⟨_, Nat.mod_lt _ (by decide)⟩).symm

end Sys2Proof.Machine
end

section
namespace Sys2Proof.Machine

/-! ### The host's five stages (44_host_framing.md R190, R196, R198, R199) -/

/-- R199: the reference function is the fold over the blocks of stages 1 to 3. -/
theorem digest_eq (input : HostInput) : digest input = (inputBlocks input).map hashBlocks := by
  unfold digest inputBlocks
  cases byteSource input with
  | error e => rfl
  | ok m =>
    dsimp only [sha1]
    cases messageBlocks m <;> rfl

/-- R193: an accepted input has at least one block. -/
theorem ne_nil_of_inputBlocks {input : HostInput} {Xs : List (Vector Word 16)} (h : inputBlocks input = .ok Xs) : Xs ≠ [] := by
  unfold inputBlocks at h
  split at h
  next m _ =>
    by_cases hm : m.length < 2 ^ 61
    · obtain ⟨Ys, blocks, ne⟩ := exists_messageBlocks hm
      cases blocks.symm.trans h
      exact ne
    · simp [messageBlocks, pad_of_le (Nat.not_lt.1 hm)] at h
  next => cases h

/-- R196: the last five reads are the digest. -/
theorem digestRead_append (rs : List Response) (d : Vector Word 5) :
    digestRead (rs ++ d.toList.map fun h => ⟨false, false, h⟩) = some d := by
  have words : #v[d[0], d[1], d[2], d[3], d[4]] = d := Vector.toList_inj.1 (toList_eq_words d).symm
  simp [digestRead, toList_eq_words, Response.digestWord, words]

/-- Settles O58: the framing's blocks are those of the script, whose last five answers are the fold over them. -/
theorem hostComputesDigest : Obligations.HostComputesDigest := by
  intro input
  rw [digest_eq]
  cases blocks : inputBlocks input with
  | error e =>
    refine ⟨fun _ h => (nomatch h), fun _ h => ?_⟩
    cases h
    simp [hostProgram, hostResult, blocks]
  | ok Xs =>
    refine ⟨fun _ h _ s hs hp => ?_, fun _ h => (nomatch h)⟩
    cases h
    rw [hostProgram, blocks] at hp
    obtain ⟨u, rs, ⟨⟨n, run⟩, -, answers, -⟩, ended, phase⟩ := runsTo_driverScript hs (ne_nil_of_inputBlocks blocks) hp
    have result : hostResult input u = .ok (some (hashBlocks Xs)) := by
      simp only [hostResult, blocks, answers, ← List.append_assoc, digestRead_append]
    exact ⟨n, u, run, ended, phase, result, by simp [hostText, result]⟩

end Sys2Proof.Machine
end

section
namespace Sys2Proof.Machine

/-! ### Fault entry and its causes (60_exceptions.md R211 to R224) -/

/-- Settles O28: `raise` is `enterFault`, by a transaction with the answer after it; the codes are the table's. -/
theorem faultEntryWrites : Obligations.FaultEntryWrites := by
  refine ⟨fun s c hx => ?_, fun s we c hx => ⟨faultEntered_raiseTxn hx we c, answered_raiseTxn s we c⟩,
    rfl, rfl, rfl, rfl, rfl, rfl, rfl, rfl⟩
  rw [raise_of_phase_ne_fault hx]
  exact ⟨faultEntered_enterFault s c, notAnswered_enterFault s c⟩

/-- R83: outside phase `FAULT` a word whose fields decode to an illegal class enters the fault of that class. -/
theorem exists_faultEntered_of_illegal {s : State} {w : BitVec 40} {v : TxnVerdict} {c : FaultCode} (hx : s.phase ≠ .fault)
    (hz : twZ w = false) (hd : decodeRequest (twWe w) (twAddr w) (twWdata w) = v)
    (hv : runVerdict (twWe w) v s = illegalTxn (twWe w) c s) :
    ∃ u, runVerdict (twWe w) (decodeTW w) s = .next u ∧ FaultEntered s u c ∧ Answered s u (twWe w) true 0#32 ∧
      u.err = c.code := by
  have decoded : decodeTW w = v := (if_neg (Bool.eq_false_iff.1 hz)).trans hd
  have entered := faultEntered_raiseTxn hx (twWe w) c
  rw [decoded, hv, illegalTxn_of_phase_ne_fault hx]
  exact ⟨_, rfl, entered, answered_raiseTxn s (twWe w) c, entered.err⟩

/-- Settles O29: the fields put the word in one of the decoder's illegal classes, and each class has its fault. -/
theorem illegalTransactionsFault : Obligations.IllegalTransactionsFault := fun _ _ hx hz =>
  ⟨fun h => exists_faultEntered_of_illegal hx hz (decodeRequest_eq_illegalAddress_iff.2 h) rfl,
    fun h => exists_faultEntered_of_illegal hx hz (decodeRequest_eq_illegalDirection_iff.2 h) rfl,
    fun h => exists_faultEntered_of_illegal hx hz (decodeRequest_eq_illegalCommand_iff.2 h) rfl⟩

/-- Settles O30: `NEXT`, `FINAL` and `WRBLK` check for a busy engine; the other commands do not. -/
theorem busyFault : Obligations.BusyFault := fun s hx hq =>
  ⟨raisesFault_of_busy (.inl rfl) hx hq, raisesFault_of_busy (.inr (.inl rfl)) hx hq,
    fun i d => raisesFault_of_busy (.inr (.inr ⟨i, d, rfl⟩)) hx hq, ⟨_, rfl, rfl⟩, ⟨_, exec_rdstat s, rfl⟩,
    fun i hf => raisesFault_rddig hx hf i, fun i hf => ⟨_, exec_rddig_of_final hf i, rfl⟩⟩

/-- Settles O31: with the engine idle the phase is the next check of each command. -/
theorem phaseFault : Obligations.PhaseFault := by
  refine fun s hq => ⟨fun hf => ⟨raisesFault_next_of_final hq hf, ?_, raisesFault_wrblk_of_final hq hf⟩, fun he => ?_⟩
  · exact raisesFault_final_of_phase (by simp [hf]) hq (by simp [hf])
  · exact raisesFault_final_of_phase (by simp [he]) hq (by simp [he])

/-! ### `E_ROUND_INDEX` (R224) -/

/-- R86, R224, U13: no micro-operation is selected at a bad index. -/
theorem select_of_badIndex {q : Seq} {t : BitVec 7}
    (h : (q = .expand ∧ (t.toNat < 16 ∨ 79 < t.toNat)) ∨ (q = .round ∧ 79 < t.toNat) ∨
      ((q = .unpack ∨ q = .feed) ∧ t ≠ 0#7)) : select q t = .roundIndex := by
  rcases h with ⟨rfl, ht⟩ | ⟨rfl, ht⟩ | ⟨rfl | rfl, ht⟩
  · exact if_neg (by rw [indexIn_iff]; omega)
  · exact selectRound_of_gt (Nat.not_le.2 ht)
  · exact if_neg ht
  · exact if_neg ht

/-- R85, R224: `STATUS` after a bad index, unless all the written-flags are set. -/
theorem State.enterFault_eRoundIndex_statusWord {s : State} (hm : s.MV ≠ 0xFFFF#16) :
    (s.enterFault .eRoundIndex).statusWord = 0x00000830#32 := by
  have blkFull : (s.enterFault .eRoundIndex).blkFull = false := Bool.eq_false_iff.2 (mt (State.blkFull_iff _).1 hm)
  simp [State.statusWord, blkFull, State.busy, Phase.bits, FaultCode.code]

/-- Settles O32: a bad index selects the fault, and above 79 the four bands have no entry. -/
theorem roundIndexFault : Obligations.RoundIndexFault := by
  refine ⟨fun s hx h => ?_, fun t B C D ht => ?_⟩
  · have step : engineStep s = .next (s.enterFault .eRoundIndex) := by
      rw [engineStep, select_of_badIndex h, ← raise_of_phase_ne_fault hx]
      rfl
    exact ⟨_, step, faultEntered_enterFault s _, notAnswered_enterFault s _, rfl, State.enterFault_eRoundIndex_statusWord⟩
  · have past : 4 ≤ t / 20 := by omega
    rw [selector_eq_getElem?, roundK_eq_getElem?]
    exact ⟨List.getElem?_eq_none past, List.getElem?_eq_none past⟩

/-! ### The record of fault entries (R216, R222) -/

/-- From `s` to `u` the record grew by one cause, as phase `FAULT` was entered, or neither happened. -/
def FaultRecorded (s u : State) : Prop :=
  (u.faultLog = s.faultLog ∧ (u.phase = .fault → s.phase = .fault)) ∨
    ∃ c : FaultCode, u.faultLog = s.faultLog ++ [c] ∧ s.phase ≠ .fault ∧ u.phase = .fault ∧ u.err = c.code

theorem FaultEntered.faultRecorded {s u : State} {c : FaultCode} (h : FaultEntered s u c) (hx : s.phase ≠ .fault) :
    FaultRecorded s u := .inr ⟨c, h.faultLog, hx, h.phase, h.err⟩

/-- A raised cause is recorded, but for phase `FAULT`, where it only stops the sequencer (log entry 6). -/
theorem faultRecorded_raise (s : State) (c : FaultCode) : FaultRecorded s (s.raise c) := by
  by_cases hx : s.phase = .fault
  · rw [raise_of_phase_fault hx]
    exact .inl ⟨rfl, id⟩
  · rw [raise_of_phase_ne_fault hx]
    exact (faultEntered_enterFault s c).faultRecorded hx

theorem EngineEffect.faultRecorded {s u : State} (h : EngineEffect s u) : FaultRecorded s u := by
  cases h with
  | badIndex => exact faultRecorded_raise s _
  | feed => exact .inl ⟨rfl, fun h => by simp at h⟩
  | _ => left; simp

theorem TxnEffect.faultRecorded {s u : State} {w : BitVec 40} (h : TxnEffect s w u) : FaultRecorded s u := by
  cases h with
  | faulted c hc hx => exact .inr ⟨c, rfl, hx, rfl, rfl⟩
  | init | final => exact .inl ⟨rfl, fun h => by simp at h⟩
  | _ => exact .inl ⟨rfl, id⟩

/-- `FaultRecorded` reads registers only, so the schedule and the program before the step do not matter. -/
theorem FaultRecorded.of_sameRegs {s m u : State} (h : FaultRecorded m u) (r : SameRegs s m) : FaultRecorded s u := by
  rwa [FaultRecorded, r.faultLog, r.phase] at h

/-- Settles O35, by cases on what the step did: each agent's part keeps the record, and a poll and a reset enter no fault. -/
theorem faultRecordIsComplete : Obligations.FaultRecordIsComplete := by
  intro s u h
  cases stepEffect_of_step h with
  | engine m u hm hp he => exact he.faultRecorded.of_sameRegs hm.toSameRegs
  | txn m u w rest hm hp hpm he => exact he.faultRecorded.of_sameRegs hm.toSameRegs
  | wait m rest hm => exact .inl ⟨hm.faultLog, fun hu => hm.phase.symm.trans hu⟩
  | reset m rest hm => exact .inl ⟨hm.faultLog, fun hu => by simp at hu⟩

end Sys2Proof.Machine
end

section
namespace Sys2Proof.Machine

/-! ### The specified registers after reset (R240) -/

/-- The registers R240 specifies, at their reset values. -/
structure ResetRegs (u : State) : Prop where
  H : u.H = iv
  phase : u.phase = .empty
  seq : u.seq = .idle
  t : u.t = 0#7
  err : u.err = 0#4
  MV : u.MV = 0#16

theorem resetRegs_reset : ResetRegs State.reset := by
  constructor <;> rfl

theorem resetRegs_resetEvent (s : State) : ResetRegs s.resetEvent := by
  constructor <;> rfl

/-- Each instance of a system starts with a reset event of its own (R231). -/
theorem exists_resetEvent_of_mem_systemReset {u : State} (h : u ∈ System.reset) : ∃ s : State, u = s.resetEvent := by
  obtain ⟨k, -, rfl⟩ := List.mem_map.1 h
  exact ⟨_, rfl⟩

namespace ResetRegs
variable {u : State} (h : ResetRegs u)
include h

theorem busy : u.busy = false := u.busy_eq_false_iff.2 h.seq

theorem digestValid : u.digestValid = false := by simp [State.digestValid, h.phase]

theorem faultOut : u.faultOut = false := by simp [State.faultOut, h.phase]

theorem statusWord : u.statusWord = 0x00000000#32 := by
  have notFull : u.blkFull = false := by simp [State.blkFull, h.MV]
  rw [State.statusWord, h.err, h.phase, h.busy, notFull]
  rfl

end ResetRegs

/-- Settles O36: the reset state and every reset event set the specified registers, which `STATUS` and the sideband outputs
are functions of. -/
theorem resetValues : Obligations.ResetValues := by
  intro s u hu
  have regs : ResetRegs u := by
    rcases hu with rfl | hu | rfl
    · exact resetRegs_reset
    · obtain ⟨m, rfl⟩ := exists_resetEvent_of_mem_systemReset hu
      exact resetRegs_resetEvent m
    · exact resetRegs_resetEvent s
  exact ⟨regs.H, regs.phase, regs.seq, regs.t, regs.err, regs.MV, regs.statusWord, regs.busy, regs.digestValid, regs.faultOut⟩

/-! ### Two runs in step (R36 item 4, R240) -/

/-- A relation that every step keeps, every run keeps. -/
theorem KeptByStep.run_lockstep {R : State → State → Prop} (hR : KeptByStep R) {s u : State} (h : R s u) (n : Nat) :
    Lockstep R (run n s) (run n u) := by
  induction n generalizing s u with
  | zero => exact .next h
  | succ n ih =>
    rw [run_succ, run_succ]
    rcases hR.step_lockstep h with ⟨s', u', hs, hu, h'⟩ | ⟨r, hs, hu⟩
    · rw [hs, hu]
      exact ih h'
    · rw [hs, hu]
      exact .inr ⟨r, rfl, rfl⟩

theorem Lockstep.exists_next {R : State → State → Prop} {s' : State} {y : Result} (h : Lockstep R (.next s') y) :
    ∃ u', y = .next u' ∧ R s' u' := by
  rcases h with ⟨_, u', hs, hu, h'⟩ | ⟨r, hs, -⟩
  · cases hs
    exact ⟨u', hu, h'⟩
  · nomatch hs

/-- With the engine idle and no block word written, `A..E`, `W` and `M` are not live, whatever they hold. -/
theorem agreeOnLive_unspecified {s : State} (hq : s.seq = .idle) (hm : s.MV = 0#16) (a b c d e : Word) (W : Vector Word 80)
    (M : Vector Word 16) : AgreeOnLive s { s with A := a, B := b, C := c, D := d, E := e, W := W, M := M } :=
  SameControl.agreeOnLive_of_idle (by constructor <;> rfl) hq rfl rfl (by simp [hm])

/-- Settles O50: after reset the two states agree on the live registers, hence also after every run, and what the host sees is
among these or follows from them. -/
theorem resetChoiceIsUnobservable : Obligations.ResetChoiceIsUnobservable := by
  intro p ts a b c d e W M n s' hs
  have start := agreeOnLive_unspecified (s := { State.reset with program := p, turns := ts }) rfl rfl a b c d e W M
  have runs := agreeOnLive_keptByStep.run_lockstep start n
  rw [hs] at runs
  obtain ⟨u', hu, h⟩ := runs.exists_next
  exact ⟨u', hu, h.responses.symm, h.H.symm, h.control.statusWord_eq.symm, h.program.symm⟩

end Sys2Proof.Machine
end
